-- ==== Sys2Proof/Word.lean ====
section
/-! DEFINITION. The plainest types of the model: the word that stores an XLEN-bit value, the byte, register numbers, and XLEN. -/

namespace Sys2Proof

/-- The storage of a value of XLEN bits (spec/00_scope.md R5): XLEN is 32 or 64 and is fixed for one launch.
The XLEN bits are the low bits of the word, and every write zero-extends (log 2). -/
abbrev Word := BitVec 64

/-- The smallest addressable unit of memory (spec/20_memory.md R27). -/
abbrev Byte := BitVec 8

/-- The number of a general or floating-point register: a 5-bit register field (spec/30_encoding.md R41). -/
abbrev Reg := BitVec 5

/-- A primed 3-bit register field of a compressed format: it names register 8 + value (spec/30_encoding.md R42). -/
abbrev CReg := BitVec 3

/-- XLEN, the native integer register width (spec/00_scope.md R5). -/
inductive Xlen where
  | rv32
  | rv64
  deriving DecidableEq, Repr

/-- XLEN as a number of bits. -/
def Xlen.bits : Xlen → Nat
  | .rv32 => 32
  | .rv64 => 64

/-- The register x2, which the SP16 check watches (spec/40_helpers.md R57). -/
def Reg.sp : Reg := 2

/-- The link register of c.jal and c.jalr (spec/10_state.md R11). -/
def Reg.ra : Reg := 1

/-- The register a primed field names. -/
def CReg.reg (r : CReg) : Reg := 8 + r.setWidth 5

end Sys2Proof
end

