-- ==== Sys2Proof/Config.lean ====
section
/-! DEFINITION. What an implementation fixes and what the spec leaves free: constants with no body, so that no proof can see
a value of one (logs 8, 9, 12, 18, 19). -/

namespace Sys2Proof

/-- The floating-point formats: binary16, binary32, binary64 (spec/45_float.md R204). -/
inductive Fmt where
  | h
  | s
  | d
  deriving DecidableEq, Repr

/-- Width of a format in bits. -/
@[reducible] def Fmt.bits : Fmt → Nat
  | .h => 16
  | .s => 32
  | .d => 64

/-- The rounding modes in the order of their numbers 0 to 4 (spec/45_float.md R205). -/
inductive Rm where
  | rne
  | rtz
  | rdn
  | rup
  | rmm
  deriving DecidableEq, Repr

/-- The operations of FPU.arith. -/
inductive ArithOp where
  | add
  | sub
  | mul
  | div
  deriving DecidableEq, Repr

/-- The four fused operations: a*b + c, a*b - c, -(a*b) + c, -(a*b) - c (spec/45_float.md R210 to R213). -/
inductive FmaOp where
  | madd
  | msub
  | nmsub
  | nmadd
  deriving DecidableEq, Repr

/-- The smaller or the larger of two values. -/
inductive MinMaxOp where
  | min
  | max
  deriving DecidableEq, Repr

/-- The three comparisons. -/
inductive CmpOp where
  | eq
  | lt
  | le
  deriving DecidableEq, Repr

/-- The integer kind of a conversion: signed or unsigned, 32 or 64 bits. -/
inductive IntKind where
  | s32
  | u32
  | s64
  | u64
  deriving DecidableEq, Repr

/-- Width of an integer kind in bits. -/
@[reducible] def IntKind.bits : IntKind → Nat
  | .s32 => 32
  | .u32 => 32
  | .s64 => 64
  | .u64 => 64

/-- A use of the FPU parameter with its arguments, each value zero-extended to a word. The constructors are the
functions spec/45_float.md R204 lists; `compare` stands for the arguments of a comparison, which uses FPU.flags alone (R207). -/
inductive FpuCall where
  | arith (fmt : Fmt) (op : ArithOp) (rm : Rm) (a b : Word)
  | fma (fmt : Fmt) (op : FmaOp) (rm : Rm) (a b c : Word)
  | sqrt (fmt : Fmt) (rm : Rm) (a : Word)
  | minmax (fmt : Fmt) (op : MinMaxOp) (a b : Word)
  | compare (fmt : Fmt) (op : CmpOp) (a b : Word)
  | toInt (fmt : Fmt) (kind : IntKind) (rm : Rm) (a : Word)
  | fromInt (fmt : Fmt) (kind : IntKind) (rm : Rm) (a : Word)
  | convert (src dst : Fmt) (rm : Rm) (a : Word)
  | toBF16 (rm : Rm) (a : Word)
  deriving DecidableEq, Repr

/-- What the core sends with an ecall: the id, four arguments and the hart's memory view (spec/60_exceptions.md R398, R399). -/
structure HostRequest where
  id : Word
  arg0 : Word
  arg1 : Word
  arg2 : Word
  arg3 : Word
  memory : List (Nat × Byte)
  deriving DecidableEq, Repr

/-- The host's answer: a result with the bytes of memory it changed, or the end of the run (spec/60_exceptions.md R398). -/
inductive HostAnswer where
  | result (r : Word) (writes : List (Nat × Byte))
  | exit
  deriving DecidableEq, Repr, Inhabited

/-- The addressing modes of the load/store-multiple (spec/48_andes_vendor.md R380): pre or post increment, ascending or descending. -/
inductive LsmMode where
  | postAscending
  | postDescending
  | preAscending
  | preDescending
  deriving DecidableEq, Repr

/-- The operands the OPEN parameters LSM_PAD and LSM_WB may depend on (spec/48_andes_vendor.md R380):
the mode, the paired bit, the base value, the table indices and the padding. -/
structure LsmRequest where
  mode : LsmMode
  paired : Bool
  base : Word
  first : BitVec 5
  last : BitVec 5
  pad : Word
  deriving DecidableEq, Repr

/-- What a supplied EXECIT_LINK may depend on: the pc of the exec.it, the table base, the link register, the general
registers and memory, which holds the exec.it and the table entry (spec/48_andes_vendor.md R379; log 18). -/
structure LinkRequest where
  pc : Word
  uitb : Word
  rd : Reg
  x : Vector Word 32
  memory : List (Nat × Byte)
  deriving DecidableEq, Repr

/-- The length of lmw and smw, which the spec leaves OPEN (spec/48_andes_vendor.md R380, R381): that of the word which a
supplied LSM_ENC gives the instruction. -/
inductive LsmLength where
  | half
  | full
  deriving DecidableEq, Repr

/-- The form of a load/store-multiple: its addressing mode and the length of its word. -/
structure LsmForm where
  mode : LsmMode
  length : LsmLength
  deriving DecidableEq, Repr

/-- A length in bytes. -/
def LsmLength.bytes : LsmLength → Nat
  | .half => 2
  | .full => 4

/-- FREE VALUE. The draws of spec/00_scope.md R8: the n-th free value a run takes (log 8). -/
opaque Config.draw : Nat → Word

/-- FREE VALUE. Every value of the FPU parameter (spec/45_float.md R204): a total function of the call's arguments alone,
of which the low bits of the result's width are used (log 9). -/
opaque Config.fpu : FpuCall → Word

/-- FREE VALUE. FPU.flags: the flags a call raises (spec/45_float.md R204, spec/10_state.md R22; log 9). -/
opaque Config.fpuFlags : FpuCall → BitVec 5

/-- FREE VALUE. The host: its answer to a request; the counter makes two equal requests free to get different answers
(spec/60_exceptions.md R398; log 12). -/
opaque Config.hostAnswer : Nat → HostRequest → HostAnswer

/-- FREE VALUE. EXECIT_ADDR where another function than the spec's default is supplied: from uitb and the index
(spec/48_andes_vendor.md R378; log 18). -/
opaque Config.execItAddr : Word → BitVec 16 → Word

/-- FREE VALUE. EXECIT_LINK where it is supplied as a function: the link of an inner jal or jalr
(spec/48_andes_vendor.md R379; log 18). -/
opaque Config.execItLink : LinkRequest → Word

/-- FREE VALUE. LSM_PAD, the padding of a paired access based on x2 (spec/48_andes_vendor.md R380; log 19). -/
opaque Config.lsmPad : LsmRequest → Word

/-- FREE VALUE. LSM_WB, the value written back to the base register (spec/48_andes_vendor.md R380; log 19). -/
opaque Config.lsmWriteBack : LsmRequest → Word

end Sys2Proof
end

