-- ==== Sys2Proof/Syntax.lean ====
section
/-! DEFINITION. The instructions: one constructor per row of spec/opcode_table.json, in the table's order.
Operands are the fields of the encoding with the always-zero low bits of scaled offsets left out:
`off` of a branch or jump is offset / 2, `uimm` of a compressed load or store is offset / width,
`nzuimm` of c.addi4spn is the immediate / 4, `nzimm` of c.addi16sp is the immediate / 16 and `nzimm` of c.lui
is the immediate / 2^12. `rm` is the raw rounding-mode field, since its reserved values are encodings too. -/

namespace Sys2Proof

inductive Instr where
  -- Base integer (spec/41_base_integer.md)
  /-- lui rd, imm20 (R64). -/
  | lui (rd : Reg) (imm20 : BitVec 20)
  /-- auipc rd, imm20 (R65). -/
  | auipc (rd : Reg) (imm20 : BitVec 20)
  /-- jal rd, offset (R66). -/
  | jal (rd : Reg) (off : BitVec 20)
  /-- jalr rd, offset(rs1) (R67). -/
  | jalr (rd rs1 : Reg) (imm : BitVec 12)
  /-- beq rs1, rs2, offset (R68). -/
  | beq (rs1 rs2 : Reg) (off : BitVec 12)
  /-- bne rs1, rs2, offset (R69). -/
  | bne (rs1 rs2 : Reg) (off : BitVec 12)
  /-- blt rs1, rs2, offset (R70). -/
  | blt (rs1 rs2 : Reg) (off : BitVec 12)
  /-- bge rs1, rs2, offset (R71). -/
  | bge (rs1 rs2 : Reg) (off : BitVec 12)
  /-- bltu rs1, rs2, offset (R72). -/
  | bltu (rs1 rs2 : Reg) (off : BitVec 12)
  /-- bgeu rs1, rs2, offset (R73). -/
  | bgeu (rs1 rs2 : Reg) (off : BitVec 12)
  /-- lb rd, offset(rs1) (R74). -/
  | lb (rd rs1 : Reg) (imm : BitVec 12)
  /-- lh rd, offset(rs1) (R75). -/
  | lh (rd rs1 : Reg) (imm : BitVec 12)
  /-- lw rd, offset(rs1) (R76). -/
  | lw (rd rs1 : Reg) (imm : BitVec 12)
  /-- lbu rd, offset(rs1) (R77). -/
  | lbu (rd rs1 : Reg) (imm : BitVec 12)
  /-- lhu rd, offset(rs1) (R78). -/
  | lhu (rd rs1 : Reg) (imm : BitVec 12)
  /-- lwu rd, offset(rs1) (R79). -/
  | lwu (rd rs1 : Reg) (imm : BitVec 12)
  /-- ld rd, offset(rs1) (R80). -/
  | ld (rd rs1 : Reg) (imm : BitVec 12)
  /-- sb rs2, offset(rs1) (R81). -/
  | sb (rs2 rs1 : Reg) (imm : BitVec 12)
  /-- sh rs2, offset(rs1) (R82). -/
  | sh (rs2 rs1 : Reg) (imm : BitVec 12)
  /-- sw rs2, offset(rs1) (R83). -/
  | sw (rs2 rs1 : Reg) (imm : BitVec 12)
  /-- sd rs2, offset(rs1) (R84). -/
  | sd (rs2 rs1 : Reg) (imm : BitVec 12)
  /-- addi rd, rs1, imm12 (R85). -/
  | addi (rd rs1 : Reg) (imm : BitVec 12)
  /-- slti rd, rs1, imm12 (R86). -/
  | slti (rd rs1 : Reg) (imm : BitVec 12)
  /-- sltiu rd, rs1, imm12 (R87). -/
  | sltiu (rd rs1 : Reg) (imm : BitVec 12)
  /-- xori rd, rs1, imm12 (R88). -/
  | xori (rd rs1 : Reg) (imm : BitVec 12)
  /-- ori rd, rs1, imm12 (R89). -/
  | ori (rd rs1 : Reg) (imm : BitVec 12)
  /-- andi rd, rs1, imm12 (R90). -/
  | andi (rd rs1 : Reg) (imm : BitVec 12)
  /-- slli rd, rs1, shamt (R91). -/
  | slli (rd rs1 : Reg) (shamt : BitVec 6)
  /-- srli rd, rs1, shamt (R92). -/
  | srli (rd rs1 : Reg) (shamt : BitVec 6)
  /-- srai rd, rs1, shamt (R93). -/
  | srai (rd rs1 : Reg) (shamt : BitVec 6)
  /-- add rd, rs1, rs2 (R94). -/
  | add (rd rs1 rs2 : Reg)
  /-- sub rd, rs1, rs2 (R95). -/
  | sub (rd rs1 rs2 : Reg)
  /-- sll rd, rs1, rs2 (R96). -/
  | sll (rd rs1 rs2 : Reg)
  /-- slt rd, rs1, rs2 (R97). -/
  | slt (rd rs1 rs2 : Reg)
  /-- sltu rd, rs1, rs2 (R98). -/
  | sltu (rd rs1 rs2 : Reg)
  /-- xor rd, rs1, rs2 (R99). -/
  | xor (rd rs1 rs2 : Reg)
  /-- srl rd, rs1, rs2 (R100). -/
  | srl (rd rs1 rs2 : Reg)
  /-- sra rd, rs1, rs2 (R101). -/
  | sra (rd rs1 rs2 : Reg)
  /-- or rd, rs1, rs2 (R102). -/
  | or (rd rs1 rs2 : Reg)
  /-- and rd, rs1, rs2 (R103). -/
  | and (rd rs1 rs2 : Reg)
  /-- addiw rd, rs1, imm12 (R104). -/
  | addiw (rd rs1 : Reg) (imm : BitVec 12)
  /-- slliw rd, rs1, shamt5 (R105). -/
  | slliw (rd rs1 : Reg) (shamt : BitVec 5)
  /-- srliw rd, rs1, shamt5 (R106). -/
  | srliw (rd rs1 : Reg) (shamt : BitVec 5)
  /-- sraiw rd, rs1, shamt5 (R107). -/
  | sraiw (rd rs1 : Reg) (shamt : BitVec 5)
  /-- addw rd, rs1, rs2 (R108). -/
  | addw (rd rs1 rs2 : Reg)
  /-- subw rd, rs1, rs2 (R109). -/
  | subw (rd rs1 rs2 : Reg)
  /-- sllw rd, rs1, rs2 (R110). -/
  | sllw (rd rs1 rs2 : Reg)
  /-- srlw rd, rs1, rs2 (R111). -/
  | srlw (rd rs1 rs2 : Reg)
  /-- sraw rd, rs1, rs2 (R112). -/
  | sraw (rd rs1 rs2 : Reg)
  /-- fence pred, succ (R113). -/
  | fence (fm pred succ : BitVec 4) (rs1 rd : Reg)
  /-- fence.i (R114). -/
  | fenceI (rd rs1 : Reg) (imm : BitVec 12)
  /-- ecall (R115). -/
  | ecall
  /-- ebreak (R116). -/
  | ebreak
  /-- csrrw rd, csr, rs1 (R117). -/
  | csrrw (rd : Reg) (csr : BitVec 12) (rs1 : Reg)
  /-- csrrs rd, csr, rs1 (R118). -/
  | csrrs (rd : Reg) (csr : BitVec 12) (rs1 : Reg)
  /-- csrrc rd, csr, rs1 (R119). -/
  | csrrc (rd : Reg) (csr : BitVec 12) (rs1 : Reg)
  /-- csrrwi rd, csr, uimm5 (R120). -/
  | csrrwi (rd : Reg) (csr : BitVec 12) (uimm : BitVec 5)
  /-- csrrsi rd, csr, uimm5 (R121). -/
  | csrrsi (rd : Reg) (csr : BitVec 12) (uimm : BitVec 5)
  /-- csrrci rd, csr, uimm5 (R122). -/
  | csrrci (rd : Reg) (csr : BitVec 12) (uimm : BitVec 5)
  -- Compressed (spec/42_compressed.md)
  /-- c.addi4spn rd', sp, nzuimm (R123). -/
  | cAddi4spn (rd : CReg) (nzuimm : BitVec 8)
  /-- c.fld rd', uimm(rs1') (R124). -/
  | cFld (rd rs1 : CReg) (uimm : BitVec 5)
  /-- c.lw rd', uimm(rs1') (R125). -/
  | cLw (rd rs1 : CReg) (uimm : BitVec 5)
  /-- c.flw rd', uimm(rs1') (R126). -/
  | cFlw (rd rs1 : CReg) (uimm : BitVec 5)
  /-- c.ld rd', uimm(rs1') (R127). -/
  | cLd (rd rs1 : CReg) (uimm : BitVec 5)
  /-- c.fsd rs2', uimm(rs1') (R128). -/
  | cFsd (rs2 rs1 : CReg) (uimm : BitVec 5)
  /-- c.sw rs2', uimm(rs1') (R129). -/
  | cSw (rs2 rs1 : CReg) (uimm : BitVec 5)
  /-- c.fsw rs2', uimm(rs1') (R130). -/
  | cFsw (rs2 rs1 : CReg) (uimm : BitVec 5)
  /-- c.sd rs2', uimm(rs1') (R131). -/
  | cSd (rs2 rs1 : CReg) (uimm : BitVec 5)
  /-- c.nop (R132). -/
  | cNop
  /-- c.addi rd, nzimm (R133). -/
  | cAddi (rd : Reg) (imm : BitVec 6)
  /-- c.jal offset (R134). -/
  | cJal (off : BitVec 11)
  /-- c.addiw rd, imm (R135). -/
  | cAddiw (rd : Reg) (imm : BitVec 6)
  /-- c.li rd, imm (R136). -/
  | cLi (rd : Reg) (imm : BitVec 6)
  /-- c.addi16sp sp, nzimm (R137). -/
  | cAddi16sp (nzimm : BitVec 6)
  /-- c.lui rd, nzimm (R138). -/
  | cLui (rd : Reg) (nzimm : BitVec 6)
  /-- c.srli rd', shamt (R139). -/
  | cSrli (rd : CReg) (shamt : BitVec 6)
  /-- c.srai rd', shamt (R140). -/
  | cSrai (rd : CReg) (shamt : BitVec 6)
  /-- c.andi rd', imm (R141). -/
  | cAndi (rd : CReg) (imm : BitVec 6)
  /-- c.sub rd', rs2' (R142). -/
  | cSub (rd rs2 : CReg)
  /-- c.xor rd', rs2' (R143). -/
  | cXor (rd rs2 : CReg)
  /-- c.or rd', rs2' (R144). -/
  | cOr (rd rs2 : CReg)
  /-- c.and rd', rs2' (R145). -/
  | cAnd (rd rs2 : CReg)
  /-- c.subw rd', rs2' (R146). -/
  | cSubw (rd rs2 : CReg)
  /-- c.addw rd', rs2' (R147). -/
  | cAddw (rd rs2 : CReg)
  /-- c.j offset (R148). -/
  | cJ (off : BitVec 11)
  /-- c.beqz rs1', offset (R149). -/
  | cBeqz (rs1 : CReg) (off : BitVec 8)
  /-- c.bnez rs1', offset (R150). -/
  | cBnez (rs1 : CReg) (off : BitVec 8)
  /-- c.slli rd, shamt (R151). -/
  | cSlli (rd : Reg) (shamt : BitVec 6)
  /-- c.fldsp rd, uimm(sp) (R152). -/
  | cFldsp (rd : Reg) (uimm : BitVec 6)
  /-- c.lwsp rd, uimm(sp) (R153). -/
  | cLwsp (rd : Reg) (uimm : BitVec 6)
  /-- c.flwsp rd, uimm(sp) (R154). -/
  | cFlwsp (rd : Reg) (uimm : BitVec 6)
  /-- c.ldsp rd, uimm(sp) (R155). -/
  | cLdsp (rd : Reg) (uimm : BitVec 6)
  /-- c.jr rs1 (R156). -/
  | cJr (rs1 : Reg)
  /-- c.mv rd, rs2 (R157). -/
  | cMv (rd rs2 : Reg)
  /-- c.ebreak (R158). -/
  | cEbreak
  /-- c.jalr rs1 (R159). -/
  | cJalr (rs1 : Reg)
  /-- c.add rd, rs2 (R160). -/
  | cAdd (rd rs2 : Reg)
  /-- c.fsdsp rs2, uimm(sp) (R161). -/
  | cFsdsp (rs2 : Reg) (uimm : BitVec 6)
  /-- c.swsp rs2, uimm(sp) (R162). -/
  | cSwsp (rs2 : Reg) (uimm : BitVec 6)
  /-- c.fswsp rs2, uimm(sp) (R163). -/
  | cFswsp (rs2 : Reg) (uimm : BitVec 6)
  /-- c.sdsp rs2, uimm(sp) (R164). -/
  | cSdsp (rs2 : Reg) (uimm : BitVec 6)
  -- Multiply and divide (spec/43_muldiv.md)
  /-- mul rd, rs1, rs2 (R165). -/
  | mul (rd rs1 rs2 : Reg)
  /-- mulh rd, rs1, rs2 (R166). -/
  | mulh (rd rs1 rs2 : Reg)
  /-- mulhsu rd, rs1, rs2 (R167). -/
  | mulhsu (rd rs1 rs2 : Reg)
  /-- mulhu rd, rs1, rs2 (R168). -/
  | mulhu (rd rs1 rs2 : Reg)
  /-- div rd, rs1, rs2 (R169). -/
  | div (rd rs1 rs2 : Reg)
  /-- divu rd, rs1, rs2 (R170). -/
  | divu (rd rs1 rs2 : Reg)
  /-- rem rd, rs1, rs2 (R171). -/
  | rem (rd rs1 rs2 : Reg)
  /-- remu rd, rs1, rs2 (R172). -/
  | remu (rd rs1 rs2 : Reg)
  /-- mulw rd, rs1, rs2 (R173). -/
  | mulw (rd rs1 rs2 : Reg)
  /-- divw rd, rs1, rs2 (R174). -/
  | divw (rd rs1 rs2 : Reg)
  /-- divuw rd, rs1, rs2 (R175). -/
  | divuw (rd rs1 rs2 : Reg)
  /-- remw rd, rs1, rs2 (R176). -/
  | remw (rd rs1 rs2 : Reg)
  /-- remuw rd, rs1, rs2 (R177). -/
  | remuw (rd rs1 rs2 : Reg)
  -- Atomic (spec/44_atomic.md)
  /-- lr.w rd, (rs1) (R182). -/
  | lrW (rd rs1 : Reg) (aq rl : BitVec 1)
  /-- sc.w rd, rs2, (rs1) (R183). -/
  | scW (rd rs2 rs1 : Reg) (aq rl : BitVec 1)
  /-- amoswap.w rd, rs2, (rs1) (R184). -/
  | amoswapW (rd rs2 rs1 : Reg) (aq rl : BitVec 1)
  /-- amoadd.w rd, rs2, (rs1) (R185). -/
  | amoaddW (rd rs2 rs1 : Reg) (aq rl : BitVec 1)
  /-- amoxor.w rd, rs2, (rs1) (R186). -/
  | amoxorW (rd rs2 rs1 : Reg) (aq rl : BitVec 1)
  /-- amoand.w rd, rs2, (rs1) (R187). -/
  | amoandW (rd rs2 rs1 : Reg) (aq rl : BitVec 1)
  /-- amoor.w rd, rs2, (rs1) (R188). -/
  | amoorW (rd rs2 rs1 : Reg) (aq rl : BitVec 1)
  /-- amomin.w rd, rs2, (rs1) (R189). -/
  | amominW (rd rs2 rs1 : Reg) (aq rl : BitVec 1)
  /-- amomax.w rd, rs2, (rs1) (R190). -/
  | amomaxW (rd rs2 rs1 : Reg) (aq rl : BitVec 1)
  /-- amominu.w rd, rs2, (rs1) (R191). -/
  | amominuW (rd rs2 rs1 : Reg) (aq rl : BitVec 1)
  /-- amomaxu.w rd, rs2, (rs1) (R192). -/
  | amomaxuW (rd rs2 rs1 : Reg) (aq rl : BitVec 1)
  /-- lr.d rd, (rs1) (R193). -/
  | lrD (rd rs1 : Reg) (aq rl : BitVec 1)
  /-- sc.d rd, rs2, (rs1) (R194). -/
  | scD (rd rs2 rs1 : Reg) (aq rl : BitVec 1)
  /-- amoswap.d rd, rs2, (rs1) (R195). -/
  | amoswapD (rd rs2 rs1 : Reg) (aq rl : BitVec 1)
  /-- amoadd.d rd, rs2, (rs1) (R196). -/
  | amoaddD (rd rs2 rs1 : Reg) (aq rl : BitVec 1)
  /-- amoxor.d rd, rs2, (rs1) (R197). -/
  | amoxorD (rd rs2 rs1 : Reg) (aq rl : BitVec 1)
  /-- amoand.d rd, rs2, (rs1) (R198). -/
  | amoandD (rd rs2 rs1 : Reg) (aq rl : BitVec 1)
  /-- amoor.d rd, rs2, (rs1) (R199). -/
  | amoorD (rd rs2 rs1 : Reg) (aq rl : BitVec 1)
  /-- amomin.d rd, rs2, (rs1) (R200). -/
  | amominD (rd rs2 rs1 : Reg) (aq rl : BitVec 1)
  /-- amomax.d rd, rs2, (rs1) (R201). -/
  | amomaxD (rd rs2 rs1 : Reg) (aq rl : BitVec 1)
  /-- amominu.d rd, rs2, (rs1) (R202). -/
  | amominuD (rd rs2 rs1 : Reg) (aq rl : BitVec 1)
  /-- amomaxu.d rd, rs2, (rs1) (R203). -/
  | amomaxuD (rd rs2 rs1 : Reg) (aq rl : BitVec 1)
  -- Single and double precision (spec/45_float.md)
  /-- fcvt.s.d rd, rs1, rm (R268). -/
  | fcvtSD (rd rs1 : Reg) (rm : BitVec 3)
  /-- fcvt.d.s rd, rs1, rm (R269). -/
  | fcvtDS (rd rs1 : Reg) (rm : BitVec 3)
  -- Half precision and bf16 (spec/46_float_half_bf16.md)
  /-- fcvt.s.h rd, rs1, rm (R300). -/
  | fcvtSH (rd rs1 : Reg) (rm : BitVec 3)
  /-- fcvt.h.s rd, rs1, rm (R301). -/
  | fcvtHS (rd rs1 : Reg) (rm : BitVec 3)
  /-- fcvt.d.h rd, rs1, rm (R302). -/
  | fcvtDH (rd rs1 : Reg) (rm : BitVec 3)
  /-- fcvt.h.d rd, rs1, rm (R303). -/
  | fcvtHD (rd rs1 : Reg) (rm : BitVec 3)
  -- Single and double precision (spec/45_float.md)
  /-- flw rd, offset(rs1) (R208). -/
  | flw (rd rs1 : Reg) (imm : BitVec 12)
  /-- fsw rs2, offset(rs1) (R209). -/
  | fsw (rs2 rs1 : Reg) (imm : BitVec 12)
  /-- fmadd.s rd, rs1, rs2, rs3, rm (R210). -/
  | fmaddS (rd rs1 rs2 rs3 : Reg) (rm : BitVec 3)
  /-- fmsub.s rd, rs1, rs2, rs3, rm (R211). -/
  | fmsubS (rd rs1 rs2 rs3 : Reg) (rm : BitVec 3)
  /-- fnmsub.s rd, rs1, rs2, rs3, rm (R212). -/
  | fnmsubS (rd rs1 rs2 rs3 : Reg) (rm : BitVec 3)
  /-- fnmadd.s rd, rs1, rs2, rs3, rm (R213). -/
  | fnmaddS (rd rs1 rs2 rs3 : Reg) (rm : BitVec 3)
  /-- fadd.s rd, rs1, rs2, rm (R214). -/
  | faddS (rd rs1 rs2 : Reg) (rm : BitVec 3)
  /-- fsub.s rd, rs1, rs2, rm (R215). -/
  | fsubS (rd rs1 rs2 : Reg) (rm : BitVec 3)
  /-- fmul.s rd, rs1, rs2, rm (R216). -/
  | fmulS (rd rs1 rs2 : Reg) (rm : BitVec 3)
  /-- fdiv.s rd, rs1, rs2, rm (R217). -/
  | fdivS (rd rs1 rs2 : Reg) (rm : BitVec 3)
  /-- fsqrt.s rd, rs1, rm (R218). -/
  | fsqrtS (rd rs1 : Reg) (rm : BitVec 3)
  /-- fsgnj.s rd, rs1, rs2 (R219). -/
  | fsgnjS (rd rs1 rs2 : Reg)
  /-- fsgnjn.s rd, rs1, rs2 (R220). -/
  | fsgnjnS (rd rs1 rs2 : Reg)
  /-- fsgnjx.s rd, rs1, rs2 (R221). -/
  | fsgnjxS (rd rs1 rs2 : Reg)
  /-- fmin.s rd, rs1, rs2 (R222). -/
  | fminS (rd rs1 rs2 : Reg)
  /-- fmax.s rd, rs1, rs2 (R223). -/
  | fmaxS (rd rs1 rs2 : Reg)
  /-- feq.s rd, rs1, rs2 (R224). -/
  | feqS (rd rs1 rs2 : Reg)
  /-- flt.s rd, rs1, rs2 (R225). -/
  | fltS (rd rs1 rs2 : Reg)
  /-- fle.s rd, rs1, rs2 (R226). -/
  | fleS (rd rs1 rs2 : Reg)
  /-- fclass.s rd, rs1 (R227). -/
  | fclassS (rd rs1 : Reg)
  /-- fcvt.w.s rd, rs1, rm (R228). -/
  | fcvtWS (rd rs1 : Reg) (rm : BitVec 3)
  /-- fcvt.s.w rd, rs1, rm (R229). -/
  | fcvtSW (rd rs1 : Reg) (rm : BitVec 3)
  /-- fcvt.wu.s rd, rs1, rm (R230). -/
  | fcvtWuS (rd rs1 : Reg) (rm : BitVec 3)
  /-- fcvt.s.wu rd, rs1, rm (R231). -/
  | fcvtSWu (rd rs1 : Reg) (rm : BitVec 3)
  /-- fcvt.l.s rd, rs1, rm (R232). -/
  | fcvtLS (rd rs1 : Reg) (rm : BitVec 3)
  /-- fcvt.s.l rd, rs1, rm (R233). -/
  | fcvtSL (rd rs1 : Reg) (rm : BitVec 3)
  /-- fcvt.lu.s rd, rs1, rm (R234). -/
  | fcvtLuS (rd rs1 : Reg) (rm : BitVec 3)
  /-- fcvt.s.lu rd, rs1, rm (R235). -/
  | fcvtSLu (rd rs1 : Reg) (rm : BitVec 3)
  /-- fmv.x.w rd, rs1 (R236). -/
  | fmvXW (rd rs1 : Reg)
  /-- fmv.w.x rd, rs1 (R237). -/
  | fmvWX (rd rs1 : Reg)
  /-- fld rd, offset(rs1) (R238). -/
  | fld (rd rs1 : Reg) (imm : BitVec 12)
  /-- fsd rs2, offset(rs1) (R239). -/
  | fsd (rs2 rs1 : Reg) (imm : BitVec 12)
  /-- fmadd.d rd, rs1, rs2, rs3, rm (R240). -/
  | fmaddD (rd rs1 rs2 rs3 : Reg) (rm : BitVec 3)
  /-- fmsub.d rd, rs1, rs2, rs3, rm (R241). -/
  | fmsubD (rd rs1 rs2 rs3 : Reg) (rm : BitVec 3)
  /-- fnmsub.d rd, rs1, rs2, rs3, rm (R242). -/
  | fnmsubD (rd rs1 rs2 rs3 : Reg) (rm : BitVec 3)
  /-- fnmadd.d rd, rs1, rs2, rs3, rm (R243). -/
  | fnmaddD (rd rs1 rs2 rs3 : Reg) (rm : BitVec 3)
  /-- fadd.d rd, rs1, rs2, rm (R244). -/
  | faddD (rd rs1 rs2 : Reg) (rm : BitVec 3)
  /-- fsub.d rd, rs1, rs2, rm (R245). -/
  | fsubD (rd rs1 rs2 : Reg) (rm : BitVec 3)
  /-- fmul.d rd, rs1, rs2, rm (R246). -/
  | fmulD (rd rs1 rs2 : Reg) (rm : BitVec 3)
  /-- fdiv.d rd, rs1, rs2, rm (R247). -/
  | fdivD (rd rs1 rs2 : Reg) (rm : BitVec 3)
  /-- fsqrt.d rd, rs1, rm (R248). -/
  | fsqrtD (rd rs1 : Reg) (rm : BitVec 3)
  /-- fsgnj.d rd, rs1, rs2 (R249). -/
  | fsgnjD (rd rs1 rs2 : Reg)
  /-- fsgnjn.d rd, rs1, rs2 (R250). -/
  | fsgnjnD (rd rs1 rs2 : Reg)
  /-- fsgnjx.d rd, rs1, rs2 (R251). -/
  | fsgnjxD (rd rs1 rs2 : Reg)
  /-- fmin.d rd, rs1, rs2 (R252). -/
  | fminD (rd rs1 rs2 : Reg)
  /-- fmax.d rd, rs1, rs2 (R253). -/
  | fmaxD (rd rs1 rs2 : Reg)
  /-- feq.d rd, rs1, rs2 (R254). -/
  | feqD (rd rs1 rs2 : Reg)
  /-- flt.d rd, rs1, rs2 (R255). -/
  | fltD (rd rs1 rs2 : Reg)
  /-- fle.d rd, rs1, rs2 (R256). -/
  | fleD (rd rs1 rs2 : Reg)
  /-- fclass.d rd, rs1 (R257). -/
  | fclassD (rd rs1 : Reg)
  /-- fcvt.w.d rd, rs1, rm (R258). -/
  | fcvtWD (rd rs1 : Reg) (rm : BitVec 3)
  /-- fcvt.d.w rd, rs1, rm (R259). -/
  | fcvtDW (rd rs1 : Reg) (rm : BitVec 3)
  /-- fcvt.wu.d rd, rs1, rm (R260). -/
  | fcvtWuD (rd rs1 : Reg) (rm : BitVec 3)
  /-- fcvt.d.wu rd, rs1, rm (R261). -/
  | fcvtDWu (rd rs1 : Reg) (rm : BitVec 3)
  /-- fcvt.l.d rd, rs1, rm (R262). -/
  | fcvtLD (rd rs1 : Reg) (rm : BitVec 3)
  /-- fcvt.d.l rd, rs1, rm (R263). -/
  | fcvtDL (rd rs1 : Reg) (rm : BitVec 3)
  /-- fcvt.lu.d rd, rs1, rm (R264). -/
  | fcvtLuD (rd rs1 : Reg) (rm : BitVec 3)
  /-- fcvt.d.lu rd, rs1, rm (R265). -/
  | fcvtDLu (rd rs1 : Reg) (rm : BitVec 3)
  /-- fmv.x.d rd, rs1 (R266). -/
  | fmvXD (rd rs1 : Reg)
  /-- fmv.d.x rd, rs1 (R267). -/
  | fmvDX (rd rs1 : Reg)
  -- Half precision and bf16 (spec/46_float_half_bf16.md)
  /-- flh rd, offset(rs1) (R270). -/
  | flh (rd rs1 : Reg) (imm : BitVec 12)
  /-- fsh rs2, offset(rs1) (R271). -/
  | fsh (rs2 rs1 : Reg) (imm : BitVec 12)
  /-- fmadd.h rd, rs1, rs2, rs3, rm (R272). -/
  | fmaddH (rd rs1 rs2 rs3 : Reg) (rm : BitVec 3)
  /-- fmsub.h rd, rs1, rs2, rs3, rm (R273). -/
  | fmsubH (rd rs1 rs2 rs3 : Reg) (rm : BitVec 3)
  /-- fnmsub.h rd, rs1, rs2, rs3, rm (R274). -/
  | fnmsubH (rd rs1 rs2 rs3 : Reg) (rm : BitVec 3)
  /-- fnmadd.h rd, rs1, rs2, rs3, rm (R275). -/
  | fnmaddH (rd rs1 rs2 rs3 : Reg) (rm : BitVec 3)
  /-- fadd.h rd, rs1, rs2, rm (R276). -/
  | faddH (rd rs1 rs2 : Reg) (rm : BitVec 3)
  /-- fsub.h rd, rs1, rs2, rm (R277). -/
  | fsubH (rd rs1 rs2 : Reg) (rm : BitVec 3)
  /-- fmul.h rd, rs1, rs2, rm (R278). -/
  | fmulH (rd rs1 rs2 : Reg) (rm : BitVec 3)
  /-- fdiv.h rd, rs1, rs2, rm (R279). -/
  | fdivH (rd rs1 rs2 : Reg) (rm : BitVec 3)
  /-- fsqrt.h rd, rs1, rm (R280). -/
  | fsqrtH (rd rs1 : Reg) (rm : BitVec 3)
  /-- fsgnj.h rd, rs1, rs2 (R281). -/
  | fsgnjH (rd rs1 rs2 : Reg)
  /-- fsgnjn.h rd, rs1, rs2 (R282). -/
  | fsgnjnH (rd rs1 rs2 : Reg)
  /-- fsgnjx.h rd, rs1, rs2 (R283). -/
  | fsgnjxH (rd rs1 rs2 : Reg)
  /-- fmin.h rd, rs1, rs2 (R284). -/
  | fminH (rd rs1 rs2 : Reg)
  /-- fmax.h rd, rs1, rs2 (R285). -/
  | fmaxH (rd rs1 rs2 : Reg)
  /-- feq.h rd, rs1, rs2 (R286). -/
  | feqH (rd rs1 rs2 : Reg)
  /-- flt.h rd, rs1, rs2 (R287). -/
  | fltH (rd rs1 rs2 : Reg)
  /-- fle.h rd, rs1, rs2 (R288). -/
  | fleH (rd rs1 rs2 : Reg)
  /-- fclass.h rd, rs1 (R289). -/
  | fclassH (rd rs1 : Reg)
  /-- fcvt.w.h rd, rs1, rm (R290). -/
  | fcvtWH (rd rs1 : Reg) (rm : BitVec 3)
  /-- fcvt.h.w rd, rs1, rm (R291). -/
  | fcvtHW (rd rs1 : Reg) (rm : BitVec 3)
  /-- fcvt.wu.h rd, rs1, rm (R292). -/
  | fcvtWuH (rd rs1 : Reg) (rm : BitVec 3)
  /-- fcvt.h.wu rd, rs1, rm (R293). -/
  | fcvtHWu (rd rs1 : Reg) (rm : BitVec 3)
  /-- fcvt.l.h rd, rs1, rm (R294). -/
  | fcvtLH (rd rs1 : Reg) (rm : BitVec 3)
  /-- fcvt.h.l rd, rs1, rm (R295). -/
  | fcvtHL (rd rs1 : Reg) (rm : BitVec 3)
  /-- fcvt.lu.h rd, rs1, rm (R296). -/
  | fcvtLuH (rd rs1 : Reg) (rm : BitVec 3)
  /-- fcvt.h.lu rd, rs1, rm (R297). -/
  | fcvtHLu (rd rs1 : Reg) (rm : BitVec 3)
  /-- fmv.x.h rd, rs1 (R298). -/
  | fmvXH (rd rs1 : Reg)
  /-- fmv.h.x rd, rs1 (R299). -/
  | fmvHX (rd rs1 : Reg)
  /-- fcvt.s.bf16 rd, rs1 (R304). -/
  | fcvtSBf16 (rd rs1 : Reg)
  /-- fcvt.bf16.s rd, rs1 (R305). -/
  | fcvtBf16S (rd rs1 : Reg)
  -- Packed SIMD (spec/47_packed_simd.md)
  /-- add16 rd, rs1, rs2 (R306). -/
  | add16 (rd rs1 rs2 : Reg)
  /-- radd16 rd, rs1, rs2 (R307). -/
  | radd16 (rd rs1 rs2 : Reg)
  /-- uradd16 rd, rs1, rs2 (R308). -/
  | uradd16 (rd rs1 rs2 : Reg)
  /-- kadd16 rd, rs1, rs2 (R309). -/
  | kadd16 (rd rs1 rs2 : Reg)
  /-- ukadd16 rd, rs1, rs2 (R310). -/
  | ukadd16 (rd rs1 rs2 : Reg)
  /-- sub16 rd, rs1, rs2 (R311). -/
  | sub16 (rd rs1 rs2 : Reg)
  /-- rsub16 rd, rs1, rs2 (R312). -/
  | rsub16 (rd rs1 rs2 : Reg)
  /-- ursub16 rd, rs1, rs2 (R313). -/
  | ursub16 (rd rs1 rs2 : Reg)
  /-- ksub16 rd, rs1, rs2 (R314). -/
  | ksub16 (rd rs1 rs2 : Reg)
  /-- uksub16 rd, rs1, rs2 (R315). -/
  | uksub16 (rd rs1 rs2 : Reg)
  /-- add8 rd, rs1, rs2 (R316). -/
  | add8 (rd rs1 rs2 : Reg)
  /-- radd8 rd, rs1, rs2 (R317). -/
  | radd8 (rd rs1 rs2 : Reg)
  /-- uradd8 rd, rs1, rs2 (R318). -/
  | uradd8 (rd rs1 rs2 : Reg)
  /-- kadd8 rd, rs1, rs2 (R319). -/
  | kadd8 (rd rs1 rs2 : Reg)
  /-- ukadd8 rd, rs1, rs2 (R320). -/
  | ukadd8 (rd rs1 rs2 : Reg)
  /-- sub8 rd, rs1, rs2 (R321). -/
  | sub8 (rd rs1 rs2 : Reg)
  /-- rsub8 rd, rs1, rs2 (R322). -/
  | rsub8 (rd rs1 rs2 : Reg)
  /-- ursub8 rd, rs1, rs2 (R323). -/
  | ursub8 (rd rs1 rs2 : Reg)
  /-- ksub8 rd, rs1, rs2 (R324). -/
  | ksub8 (rd rs1 rs2 : Reg)
  /-- uksub8 rd, rs1, rs2 (R325). -/
  | uksub8 (rd rs1 rs2 : Reg)
  /-- cras16 rd, rs1, rs2 (R326). -/
  | cras16 (rd rs1 rs2 : Reg)
  /-- rcras16 rd, rs1, rs2 (R327). -/
  | rcras16 (rd rs1 rs2 : Reg)
  /-- urcras16 rd, rs1, rs2 (R328). -/
  | urcras16 (rd rs1 rs2 : Reg)
  /-- kcras16 rd, rs1, rs2 (R329). -/
  | kcras16 (rd rs1 rs2 : Reg)
  /-- ukcras16 rd, rs1, rs2 (R330). -/
  | ukcras16 (rd rs1 rs2 : Reg)
  /-- crsa16 rd, rs1, rs2 (R331). -/
  | crsa16 (rd rs1 rs2 : Reg)
  /-- rcrsa16 rd, rs1, rs2 (R332). -/
  | rcrsa16 (rd rs1 rs2 : Reg)
  /-- urcrsa16 rd, rs1, rs2 (R333). -/
  | urcrsa16 (rd rs1 rs2 : Reg)
  /-- kcrsa16 rd, rs1, rs2 (R334). -/
  | kcrsa16 (rd rs1 rs2 : Reg)
  /-- ukcrsa16 rd, rs1, rs2 (R335). -/
  | ukcrsa16 (rd rs1 rs2 : Reg)
  /-- sra16 rd, rs1, rs2 (R336). -/
  | sra16 (rd rs1 rs2 : Reg)
  /-- sra16.u rd, rs1, rs2 (R337). -/
  | sra16U (rd rs1 rs2 : Reg)
  /-- srl16 rd, rs1, rs2 (R338). -/
  | srl16 (rd rs1 rs2 : Reg)
  /-- srl16.u rd, rs1, rs2 (R339). -/
  | srl16U (rd rs1 rs2 : Reg)
  /-- sll16 rd, rs1, rs2 (R340). -/
  | sll16 (rd rs1 rs2 : Reg)
  /-- ksll16 rd, rs1, rs2 (R341). -/
  | ksll16 (rd rs1 rs2 : Reg)
  /-- srai16 rd, rs1, imm4u (R342). -/
  | srai16 (rd rs1 : Reg) (imm4u : BitVec 4)
  /-- srai16.u rd, rs1, imm4u (R343). -/
  | srai16U (rd rs1 : Reg) (imm4u : BitVec 4)
  /-- srli16 rd, rs1, imm4u (R344). -/
  | srli16 (rd rs1 : Reg) (imm4u : BitVec 4)
  /-- srli16.u rd, rs1, imm4u (R345). -/
  | srli16U (rd rs1 : Reg) (imm4u : BitVec 4)
  /-- slli16 rd, rs1, imm4u (R346). -/
  | slli16 (rd rs1 : Reg) (imm4u : BitVec 4)
  /-- kslli16 rd, rs1, imm4u (R347). -/
  | kslli16 (rd rs1 : Reg) (imm4u : BitVec 4)
  /-- kslra16 rd, rs1, rs2 (R348). -/
  | kslra16 (rd rs1 rs2 : Reg)
  /-- kslra16.u rd, rs1, rs2 (R349). -/
  | kslra16U (rd rs1 rs2 : Reg)
  /-- cmpeq16 rd, rs1, rs2 (R350). -/
  | cmpeq16 (rd rs1 rs2 : Reg)
  /-- scmplt16 rd, rs1, rs2 (R351). -/
  | scmplt16 (rd rs1 rs2 : Reg)
  /-- scmple16 rd, rs1, rs2 (R352). -/
  | scmple16 (rd rs1 rs2 : Reg)
  /-- ucmplt16 rd, rs1, rs2 (R353). -/
  | ucmplt16 (rd rs1 rs2 : Reg)
  /-- ucmple16 rd, rs1, rs2 (R354). -/
  | ucmple16 (rd rs1 rs2 : Reg)
  /-- cmpeq8 rd, rs1, rs2 (R355). -/
  | cmpeq8 (rd rs1 rs2 : Reg)
  /-- scmplt8 rd, rs1, rs2 (R356). -/
  | scmplt8 (rd rs1 rs2 : Reg)
  /-- scmple8 rd, rs1, rs2 (R357). -/
  | scmple8 (rd rs1 rs2 : Reg)
  /-- ucmplt8 rd, rs1, rs2 (R358). -/
  | ucmplt8 (rd rs1 rs2 : Reg)
  /-- ucmple8 rd, rs1, rs2 (R359). -/
  | ucmple8 (rd rs1 rs2 : Reg)
  /-- khm16 rd, rs1, rs2 (R360). -/
  | khm16 (rd rs1 rs2 : Reg)
  /-- khmx16 rd, rs1, rs2 (R361). -/
  | khmx16 (rd rs1 rs2 : Reg)
  /-- khm8 rd, rs1, rs2 (R362). -/
  | khm8 (rd rs1 rs2 : Reg)
  /-- khmx8 rd, rs1, rs2 (R363). -/
  | khmx8 (rd rs1 rs2 : Reg)
  /-- smin16 rd, rs1, rs2 (R364). -/
  | smin16 (rd rs1 rs2 : Reg)
  /-- umin16 rd, rs1, rs2 (R365). -/
  | umin16 (rd rs1 rs2 : Reg)
  /-- smax16 rd, rs1, rs2 (R366). -/
  | smax16 (rd rs1 rs2 : Reg)
  /-- umax16 rd, rs1, rs2 (R367). -/
  | umax16 (rd rs1 rs2 : Reg)
  /-- smin8 rd, rs1, rs2 (R368). -/
  | smin8 (rd rs1 rs2 : Reg)
  /-- umin8 rd, rs1, rs2 (R369). -/
  | umin8 (rd rs1 rs2 : Reg)
  /-- smax8 rd, rs1, rs2 (R370). -/
  | smax8 (rd rs1 rs2 : Reg)
  /-- umax8 rd, rs1, rs2 (R371). -/
  | umax8 (rd rs1 rs2 : Reg)
  /-- sclip16 rd, rs1, imm4u (R372). -/
  | sclip16 (rd rs1 : Reg) (imm4u : BitVec 4)
  /-- uclip16 rd, rs1, imm4u (R373). -/
  | uclip16 (rd rs1 : Reg) (imm4u : BitVec 4)
  /-- kabs16 rd, rs1 (R374). -/
  | kabs16 (rd rs1 : Reg)
  /-- kabs8 rd, rs1 (R375). -/
  | kabs8 (rd rs1 : Reg)
  -- Vendor table-execute and load/store-multiple (spec/48_andes_vendor.md)
  /-- exec.it index (R379). -/
  | execIt (index : BitVec 16)
  /-- lmw (vendor load/store-multiple; operand spelling not in source) (R380). -/
  | lmw (rb : Reg) (first last : BitVec 5) (form : LsmForm) (paired : Bool)
  /-- smw (vendor load/store-multiple; operand spelling not in source) (R381). -/
  | smw (rb : Reg) (first last : BitVec 5) (form : LsmForm) (paired : Bool)
  deriving DecidableEq, Repr

end Sys2Proof
end

