-- ==== Sys2Proof/WellFormed.lean ====
section
/-! DEFINITION. Which instructions an encoding can hold, and on which XLEN each exists. The operand types rule out most
ill-formed operands; what is left are the predicates of the compressed rows (spec/30_encoding.md R45). -/

namespace Sys2Proof

/-- The operand predicates of the rows of spec/opcode_table.json (spec/30_encoding.md R45). -/
def Instr.wellFormed : Instr → Bool
  | .cAddi4spn _rd nzuimm => nzuimm != 0
  | .cAddi rd _imm => rd != 0
  | .cAddiw rd _imm => rd != 0
  | .cLi rd _imm => rd != 0
  | .cAddi16sp nzimm => nzimm != 0
  | .cLui rd nzimm => rd != 0 && rd != 2 && nzimm != 0
  | .cSlli rd _shamt => rd != 0
  | .cLwsp rd _uimm => rd != 0
  | .cLdsp rd _uimm => rd != 0
  | .cJr rs1 => rs1 != 0
  | .cMv rd rs2 => rd != 0 && rs2 != 0
  | .cJalr rs1 => rs1 != 0
  | .cAdd rd rs2 => rd != 0 && rs2 != 0
  | _ => true

/-- The XLEN a row needs: `none` where it exists for both (spec/30_encoding.md R44). -/
def Instr.rowXlen : Instr → Option Xlen
  | .lwu _ _ _ => some .rv64
  | .ld _ _ _ => some .rv64
  | .sd _ _ _ => some .rv64
  | .addiw _ _ _ => some .rv64
  | .slliw _ _ _ => some .rv64
  | .srliw _ _ _ => some .rv64
  | .sraiw _ _ _ => some .rv64
  | .addw _ _ _ => some .rv64
  | .subw _ _ _ => some .rv64
  | .sllw _ _ _ => some .rv64
  | .srlw _ _ _ => some .rv64
  | .sraw _ _ _ => some .rv64
  | .cLd _ _ _ => some .rv64
  | .cSd _ _ _ => some .rv64
  | .cAddiw _ _ => some .rv64
  | .cSubw _ _ => some .rv64
  | .cAddw _ _ => some .rv64
  | .cLdsp _ _ => some .rv64
  | .cSdsp _ _ => some .rv64
  | .mulw _ _ _ => some .rv64
  | .divw _ _ _ => some .rv64
  | .divuw _ _ _ => some .rv64
  | .remw _ _ _ => some .rv64
  | .remuw _ _ _ => some .rv64
  | .lrD _ _ _ _ => some .rv64
  | .scD _ _ _ _ _ => some .rv64
  | .amoswapD _ _ _ _ _ => some .rv64
  | .amoaddD _ _ _ _ _ => some .rv64
  | .amoxorD _ _ _ _ _ => some .rv64
  | .amoandD _ _ _ _ _ => some .rv64
  | .amoorD _ _ _ _ _ => some .rv64
  | .amominD _ _ _ _ _ => some .rv64
  | .amomaxD _ _ _ _ _ => some .rv64
  | .amominuD _ _ _ _ _ => some .rv64
  | .amomaxuD _ _ _ _ _ => some .rv64
  | .fcvtLS _ _ _ => some .rv64
  | .fcvtSL _ _ _ => some .rv64
  | .fcvtLuS _ _ _ => some .rv64
  | .fcvtSLu _ _ _ => some .rv64
  | .fcvtLD _ _ _ => some .rv64
  | .fcvtDL _ _ _ => some .rv64
  | .fcvtLuD _ _ _ => some .rv64
  | .fcvtDLu _ _ _ => some .rv64
  | .fmvXD _ _ => some .rv64
  | .fmvDX _ _ => some .rv64
  | .fcvtLH _ _ _ => some .rv64
  | .fcvtHL _ _ _ => some .rv64
  | .fcvtLuH _ _ _ => some .rv64
  | .fcvtHLu _ _ _ => some .rv64
  | .cFlw _ _ _ => some .rv32
  | .cFsw _ _ _ => some .rv32
  | .cJal _ => some .rv32
  | .cFlwsp _ _ => some .rv32
  | .cFswsp _ _ => some .rv32
  | _ => none

/-- The instruction's row is in the table filtered to XLEN (spec/30_encoding.md R44). -/
def Instr.existsOn (xlen : Xlen) (i : Instr) : Bool :=
  match i.rowXlen with
  | none => true
  | some x => x == xlen

end Sys2Proof
end

