-- ==== Sys2Proof/Decode.lean ====
section
/-! DEFINITION. The decoder and the encoder. The decoder is the table of spec/opcode_table.json, row by row and in its
order, filtered to XLEN and scanned for the first match (spec/30_encoding.md R44, R45); a word that matches no row is
illegal or in a space the spec refuses (R46, R47). The encoder places the operands by the formats of R41, R42 and R43.
The section is noncomputable because Lean's compiler builds no object of a constructor numbered above 244, and the table has
307 rows: the kernel evaluates every definition here all the same. -/

namespace Sys2Proof

noncomputable section

/-- Why a decode answers no instruction. -/
inductive Reject where
  /-- fewer bytes than the instruction's length (the model's own: a fetch never meets it) -/
  | tooShort
  /-- no row matches and the word is in no refused space: IllegalInstruction (spec/30_encoding.md R46) -/
  | illegal
  /-- a 16-bit word that matches no row of either XLEN: REFUSED (spec/30_encoding.md R47) -/
  | unmatchedHalf
  /-- an unmatched word of the packed-SIMD major opcode: REFUSED (spec/30_encoding.md R47) -/
  | packedSpace
  /-- an unmatched word of custom-0 to custom-3: REFUSED (spec/30_encoding.md R47) -/
  | customSpace
  deriving DecidableEq, Repr

/-- An instruction word of either length (spec/30_encoding.md R40). -/
inductive Parcel where
  | half (h : BitVec 16)
  | full (w : BitVec 32)
  deriving DecidableEq, Repr

/-- The OPEN rows of 32 bits with their operands: what a supplied LSM_ENC or BF16_ENC makes a word mean. -/
inductive OpenFull where
  | lmw (rb : Reg) (first last : BitVec 5) (mode : LsmMode) (paired : Bool)
  | smw (rb : Reg) (first last : BitVec 5) (mode : LsmMode) (paired : Bool)
  | fcvtSBf16 (rd rs1 : Reg)
  | fcvtBf16S (rd rs1 : Reg)
  deriving DecidableEq, Repr

/-- The OPEN instructions a 16-bit word may be given: exec.it, which is a 16-bit form, and lmw and smw, whose length is OPEN
(spec/48_andes_vendor.md R377, R380, R381). DESIGN CHOICE: the width of the index of exec.it is OPEN (R378), and the model
takes an unsigned index of 16 bits, which the default EXECIT_ADDR zero-extends (log 17). -/
inductive OpenHalf where
  | execIt (index : BitVec 16)
  | lmw (rb : Reg) (first last : BitVec 5) (mode : LsmMode) (paired : Bool)
  | smw (rb : Reg) (first last : BitVec 5) (mode : LsmMode) (paired : Bool)
  deriving DecidableEq, Repr

/-- One word of a supplied OPEN encoding: EXECIT_ENC gives 16-bit words an index, LSM_ENC gives words of either length and
BF16_ENC gives 32-bit words an instruction (spec/00_scope.md R5). A list of these is a whole encoding, since there are
finitely many words (log 17). -/
inductive OpenRow where
  | half (h : BitVec 16) (i : OpenHalf)
  | full (w : BitVec 32) (i : OpenFull)
  deriving DecidableEq, Repr

/-- A row of the opcode table for words of n bits: mnemonic, the XLEN it needs, mask, match, the forbidden
(mask, value) pairs its predicate stands for, and the instruction with its operands taken from the word. -/
structure Row (n : Nat) where
  mnemonic : String
  xlen : Option Xlen
  mask : BitVec n
  pattern : BitVec n
  nots : List (BitVec n × BitVec n)
  build : BitVec n → Instr

/-- The row is in the table filtered to XLEN (spec/30_encoding.md R44). -/
def Row.keptOn {n : Nat} (r : Row n) (xlen : Xlen) : Bool :=
  match r.xlen with
  | none => true
  | some x => x == xlen

/-- The row's mask, match and predicate accept the word (spec/30_encoding.md R45). -/
def Row.accepts {n : Nat} (r : Row n) (w : BitVec n) : Bool :=
  (w &&& r.mask) == r.pattern && r.nots.all fun p => (w &&& p.1) != p.2

/-- The first row in table order that is kept on XLEN and accepts the word (spec/30_encoding.md R45). -/
def firstMatch {n : Nat} (xlen : Xlen) (w : BitVec n) : List (Row n) → Option (Row n)
  | [] => none
  | r :: rs => if r.keptOn xlen && r.accepts w then some r else firstMatch xlen w rs

/-! Fields of a 32-bit word (spec/30_encoding.md R41, R43). -/

def rdOf (w : BitVec 32) : BitVec 5 := w.extractLsb' 7 5
def rs1Of (w : BitVec 32) : BitVec 5 := w.extractLsb' 15 5
def rs2Of (w : BitVec 32) : BitVec 5 := w.extractLsb' 20 5
def rs3Of (w : BitVec 32) : BitVec 5 := w.extractLsb' 27 5
def rmOf (w : BitVec 32) : BitVec 3 := w.extractLsb' 12 3
def opcodeOf (w : BitVec 32) : BitVec 7 := w.extractLsb' 0 7
def imm12Of (w : BitVec 32) : BitVec 12 := w.extractLsb' 20 12
def imm20Of (w : BitVec 32) : BitVec 20 := w.extractLsb' 12 20
def shamt6Of (w : BitVec 32) : BitVec 6 := w.extractLsb' 20 6
def imm4uOf (w : BitVec 32) : BitVec 4 := w.extractLsb' 20 4
def fmOf (w : BitVec 32) : BitVec 4 := w.extractLsb' 28 4
def predOf (w : BitVec 32) : BitVec 4 := w.extractLsb' 24 4
def succOf (w : BitVec 32) : BitVec 4 := w.extractLsb' 20 4
def aqOf (w : BitVec 32) : BitVec 1 := w.extractLsb' 26 1
def rlOf (w : BitVec 32) : BitVec 1 := w.extractLsb' 25 1

/-- imm[11:5] = inst[31:25], imm[4:0] = inst[11:7]. -/
def immS (w : BitVec 32) : BitVec 12 := w.extractLsb' 25 7 ++ w.extractLsb' 7 5

/-- imm[12:1]: imm[12] = inst[31], imm[11] = inst[7], imm[10:5] = inst[30:25], imm[4:1] = inst[11:8]. -/
def offB (w : BitVec 32) : BitVec 12 :=
  w.extractLsb' 31 1 ++ w.extractLsb' 7 1 ++ w.extractLsb' 25 6 ++ w.extractLsb' 8 4

/-- imm[20:1]: imm[20] = inst[31], imm[19:12] = inst[19:12], imm[11] = inst[20], imm[10:1] = inst[30:21]. -/
def offJ (w : BitVec 32) : BitVec 20 :=
  w.extractLsb' 31 1 ++ w.extractLsb' 12 8 ++ w.extractLsb' 20 1 ++ w.extractLsb' 21 10

/-! Fields of a 16-bit word (spec/30_encoding.md R42, and each rule of spec/42_compressed.md). -/

/-- rd' or rs2' in bits 4:2. -/
def crdOf (h : BitVec 16) : BitVec 3 := h.extractLsb' 2 3
/-- rs1' or rd'/rs1' in bits 9:7. -/
def crs1Of (h : BitVec 16) : BitVec 3 := h.extractLsb' 7 3
/-- rd/rs1 in bits 11:7. -/
def crdFull (h : BitVec 16) : BitVec 5 := h.extractLsb' 7 5
/-- rs2 in bits 6:2. -/
def crs2Full (h : BitVec 16) : BitVec 5 := h.extractLsb' 2 5

/-- imm[5] = inst[12], imm[4:0] = inst[6:2] (R133); also a shift amount (R139) and c.lui's nzimm[17:12] (R138). -/
def imm6 (h : BitVec 16) : BitVec 6 := h.extractLsb' 12 1 ++ h.extractLsb' 2 5

/-- nzuimm[9:2]: [9:6] = inst[10:7], [5:4] = inst[12:11], [3] = inst[5], [2] = inst[6] (R123). -/
def nzuimmCIW (h : BitVec 16) : BitVec 8 :=
  h.extractLsb' 7 4 ++ h.extractLsb' 11 2 ++ h.extractLsb' 5 1 ++ h.extractLsb' 6 1

/-- uimm[7:3]: [7:6] = inst[6:5], [5:3] = inst[12:10] (R124). -/
def uimmCLD (h : BitVec 16) : BitVec 5 := h.extractLsb' 5 2 ++ h.extractLsb' 10 3

/-- uimm[6:2]: [6] = inst[5], [5:3] = inst[12:10], [2] = inst[6] (R125). -/
def uimmCLW (h : BitVec 16) : BitVec 5 := h.extractLsb' 5 1 ++ h.extractLsb' 10 3 ++ h.extractLsb' 6 1

/-- nzimm[9:4]: [9] = inst[12], [8:7] = inst[4:3], [6] = inst[5], [5] = inst[2], [4] = inst[6] (R137). -/
def nzimm16SP (h : BitVec 16) : BitVec 6 :=
  h.extractLsb' 12 1 ++ h.extractLsb' 3 2 ++ h.extractLsb' 5 1 ++ h.extractLsb' 2 1 ++ h.extractLsb' 6 1

/-- offset[11:1]: [11] = inst[12], [10] = inst[8], [9:8] = inst[10:9], [7] = inst[6], [6] = inst[7], [5] = inst[2],
[4] = inst[11], [3:1] = inst[5:3] (R134). -/
def offCJ (h : BitVec 16) : BitVec 11 :=
  h.extractLsb' 12 1 ++ h.extractLsb' 8 1 ++ h.extractLsb' 9 2 ++ h.extractLsb' 6 1 ++ h.extractLsb' 7 1 ++
    h.extractLsb' 2 1 ++ h.extractLsb' 11 1 ++ h.extractLsb' 3 3

/-- offset[8:1]: [8] = inst[12], [7:6] = inst[6:5], [5] = inst[2], [4:3] = inst[11:10], [2:1] = inst[4:3] (R149). -/
def offCB (h : BitVec 16) : BitVec 8 :=
  h.extractLsb' 12 1 ++ h.extractLsb' 5 2 ++ h.extractLsb' 2 1 ++ h.extractLsb' 10 2 ++ h.extractLsb' 3 2

/-- uimm[8:3]: [8:6] = inst[4:2], [5] = inst[12], [4:3] = inst[6:5] (R152). -/
def uimmLDSP (h : BitVec 16) : BitVec 6 := h.extractLsb' 2 3 ++ h.extractLsb' 12 1 ++ h.extractLsb' 5 2

/-- uimm[7:2]: [7:6] = inst[3:2], [5] = inst[12], [4:2] = inst[6:4] (R153). -/
def uimmLWSP (h : BitVec 16) : BitVec 6 := h.extractLsb' 2 2 ++ h.extractLsb' 12 1 ++ h.extractLsb' 4 3

/-- uimm[8:3]: [8:6] = inst[9:7], [5:3] = inst[12:10] (R161). -/
def uimmSDSP (h : BitVec 16) : BitVec 6 := h.extractLsb' 7 3 ++ h.extractLsb' 10 3

/-- uimm[7:2]: [7:6] = inst[8:7], [5:2] = inst[12:9] (R162). -/
def uimmSWSP (h : BitVec 16) : BitVec 6 := h.extractLsb' 7 2 ++ h.extractLsb' 9 4

/-! The rows of spec/opcode_table.json: mnemonic, XLEN, mask, match, predicate, operands. -/

/-- The base integer rows (spec/41_base_integer.md). -/
def rowsBase : List (Row 32) := [
  ⟨"lui", none, 0x0000007f, 0x00000037, [], fun w => .lui (rdOf w) (imm20Of w)⟩,
  ⟨"auipc", none, 0x0000007f, 0x00000017, [], fun w => .auipc (rdOf w) (imm20Of w)⟩,
  ⟨"jal", none, 0x0000007f, 0x0000006f, [], fun w => .jal (rdOf w) (offJ w)⟩,
  ⟨"jalr", none, 0x0000707f, 0x00000067, [], fun w => .jalr (rdOf w) (rs1Of w) (imm12Of w)⟩,
  ⟨"beq", none, 0x0000707f, 0x00000063, [], fun w => .beq (rs1Of w) (rs2Of w) (offB w)⟩,
  ⟨"bne", none, 0x0000707f, 0x00001063, [], fun w => .bne (rs1Of w) (rs2Of w) (offB w)⟩,
  ⟨"blt", none, 0x0000707f, 0x00004063, [], fun w => .blt (rs1Of w) (rs2Of w) (offB w)⟩,
  ⟨"bge", none, 0x0000707f, 0x00005063, [], fun w => .bge (rs1Of w) (rs2Of w) (offB w)⟩,
  ⟨"bltu", none, 0x0000707f, 0x00006063, [], fun w => .bltu (rs1Of w) (rs2Of w) (offB w)⟩,
  ⟨"bgeu", none, 0x0000707f, 0x00007063, [], fun w => .bgeu (rs1Of w) (rs2Of w) (offB w)⟩,
  ⟨"lb", none, 0x0000707f, 0x00000003, [], fun w => .lb (rdOf w) (rs1Of w) (imm12Of w)⟩,
  ⟨"lh", none, 0x0000707f, 0x00001003, [], fun w => .lh (rdOf w) (rs1Of w) (imm12Of w)⟩,
  ⟨"lw", none, 0x0000707f, 0x00002003, [], fun w => .lw (rdOf w) (rs1Of w) (imm12Of w)⟩,
  ⟨"lbu", none, 0x0000707f, 0x00004003, [], fun w => .lbu (rdOf w) (rs1Of w) (imm12Of w)⟩,
  ⟨"lhu", none, 0x0000707f, 0x00005003, [], fun w => .lhu (rdOf w) (rs1Of w) (imm12Of w)⟩,
  ⟨"lwu", some .rv64, 0x0000707f, 0x00006003, [], fun w => .lwu (rdOf w) (rs1Of w) (imm12Of w)⟩,
  ⟨"ld", some .rv64, 0x0000707f, 0x00003003, [], fun w => .ld (rdOf w) (rs1Of w) (imm12Of w)⟩,
  ⟨"sb", none, 0x0000707f, 0x00000023, [], fun w => .sb (rs2Of w) (rs1Of w) (immS w)⟩,
  ⟨"sh", none, 0x0000707f, 0x00001023, [], fun w => .sh (rs2Of w) (rs1Of w) (immS w)⟩,
  ⟨"sw", none, 0x0000707f, 0x00002023, [], fun w => .sw (rs2Of w) (rs1Of w) (immS w)⟩,
  ⟨"sd", some .rv64, 0x0000707f, 0x00003023, [], fun w => .sd (rs2Of w) (rs1Of w) (immS w)⟩,
  ⟨"addi", none, 0x0000707f, 0x00000013, [], fun w => .addi (rdOf w) (rs1Of w) (imm12Of w)⟩,
  ⟨"slti", none, 0x0000707f, 0x00002013, [], fun w => .slti (rdOf w) (rs1Of w) (imm12Of w)⟩,
  ⟨"sltiu", none, 0x0000707f, 0x00003013, [], fun w => .sltiu (rdOf w) (rs1Of w) (imm12Of w)⟩,
  ⟨"xori", none, 0x0000707f, 0x00004013, [], fun w => .xori (rdOf w) (rs1Of w) (imm12Of w)⟩,
  ⟨"ori", none, 0x0000707f, 0x00006013, [], fun w => .ori (rdOf w) (rs1Of w) (imm12Of w)⟩,
  ⟨"andi", none, 0x0000707f, 0x00007013, [], fun w => .andi (rdOf w) (rs1Of w) (imm12Of w)⟩,
  ⟨"slli", none, 0xfc00707f, 0x00001013, [], fun w => .slli (rdOf w) (rs1Of w) (shamt6Of w)⟩,
  ⟨"srli", none, 0xfc00707f, 0x00005013, [], fun w => .srli (rdOf w) (rs1Of w) (shamt6Of w)⟩,
  ⟨"srai", none, 0xfc00707f, 0x40005013, [], fun w => .srai (rdOf w) (rs1Of w) (shamt6Of w)⟩,
  ⟨"add", none, 0xfe00707f, 0x00000033, [], fun w => .add (rdOf w) (rs1Of w) (rs2Of w)⟩,
  ⟨"sub", none, 0xfe00707f, 0x40000033, [], fun w => .sub (rdOf w) (rs1Of w) (rs2Of w)⟩,
  ⟨"sll", none, 0xfe00707f, 0x00001033, [], fun w => .sll (rdOf w) (rs1Of w) (rs2Of w)⟩,
  ⟨"slt", none, 0xfe00707f, 0x00002033, [], fun w => .slt (rdOf w) (rs1Of w) (rs2Of w)⟩,
  ⟨"sltu", none, 0xfe00707f, 0x00003033, [], fun w => .sltu (rdOf w) (rs1Of w) (rs2Of w)⟩,
  ⟨"xor", none, 0xfe00707f, 0x00004033, [], fun w => .xor (rdOf w) (rs1Of w) (rs2Of w)⟩,
  ⟨"srl", none, 0xfe00707f, 0x00005033, [], fun w => .srl (rdOf w) (rs1Of w) (rs2Of w)⟩,
  ⟨"sra", none, 0xfe00707f, 0x40005033, [], fun w => .sra (rdOf w) (rs1Of w) (rs2Of w)⟩,
  ⟨"or", none, 0xfe00707f, 0x00006033, [], fun w => .or (rdOf w) (rs1Of w) (rs2Of w)⟩,
  ⟨"and", none, 0xfe00707f, 0x00007033, [], fun w => .and (rdOf w) (rs1Of w) (rs2Of w)⟩,
  ⟨"addiw", some .rv64, 0x0000707f, 0x0000001b, [], fun w => .addiw (rdOf w) (rs1Of w) (imm12Of w)⟩,
  ⟨"slliw", some .rv64, 0xfe00707f, 0x0000101b, [], fun w => .slliw (rdOf w) (rs1Of w) (rs2Of w)⟩,
  ⟨"srliw", some .rv64, 0xfe00707f, 0x0000501b, [], fun w => .srliw (rdOf w) (rs1Of w) (rs2Of w)⟩,
  ⟨"sraiw", some .rv64, 0xfe00707f, 0x4000501b, [], fun w => .sraiw (rdOf w) (rs1Of w) (rs2Of w)⟩,
  ⟨"addw", some .rv64, 0xfe00707f, 0x0000003b, [], fun w => .addw (rdOf w) (rs1Of w) (rs2Of w)⟩,
  ⟨"subw", some .rv64, 0xfe00707f, 0x4000003b, [], fun w => .subw (rdOf w) (rs1Of w) (rs2Of w)⟩,
  ⟨"sllw", some .rv64, 0xfe00707f, 0x0000103b, [], fun w => .sllw (rdOf w) (rs1Of w) (rs2Of w)⟩,
  ⟨"srlw", some .rv64, 0xfe00707f, 0x0000503b, [], fun w => .srlw (rdOf w) (rs1Of w) (rs2Of w)⟩,
  ⟨"sraw", some .rv64, 0xfe00707f, 0x4000503b, [], fun w => .sraw (rdOf w) (rs1Of w) (rs2Of w)⟩,
  ⟨"fence", none, 0x0000707f, 0x0000000f, [], fun w => .fence (fmOf w) (predOf w) (succOf w) (rs1Of w) (rdOf w)⟩,
  ⟨"fence.i", none, 0x0000707f, 0x0000100f, [], fun w => .fenceI (rdOf w) (rs1Of w) (imm12Of w)⟩,
  ⟨"ecall", none, 0xffffffff, 0x00000073, [], fun _ => .ecall⟩,
  ⟨"ebreak", none, 0xffffffff, 0x00100073, [], fun _ => .ebreak⟩,
  ⟨"csrrw", none, 0x0000707f, 0x00001073, [], fun w => .csrrw (rdOf w) (imm12Of w) (rs1Of w)⟩,
  ⟨"csrrs", none, 0x0000707f, 0x00002073, [], fun w => .csrrs (rdOf w) (imm12Of w) (rs1Of w)⟩,
  ⟨"csrrc", none, 0x0000707f, 0x00003073, [], fun w => .csrrc (rdOf w) (imm12Of w) (rs1Of w)⟩,
  ⟨"csrrwi", none, 0x0000707f, 0x00005073, [], fun w => .csrrwi (rdOf w) (imm12Of w) (rs1Of w)⟩,
  ⟨"csrrsi", none, 0x0000707f, 0x00006073, [], fun w => .csrrsi (rdOf w) (imm12Of w) (rs1Of w)⟩,
  ⟨"csrrci", none, 0x0000707f, 0x00007073, [], fun w => .csrrci (rdOf w) (imm12Of w) (rs1Of w)⟩]

/-- The multiply and divide rows (spec/43_muldiv.md). -/
def rowsMulDiv : List (Row 32) := [
  ⟨"mul", none, 0xfe00707f, 0x02000033, [], fun w => .mul (rdOf w) (rs1Of w) (rs2Of w)⟩,
  ⟨"mulh", none, 0xfe00707f, 0x02001033, [], fun w => .mulh (rdOf w) (rs1Of w) (rs2Of w)⟩,
  ⟨"mulhsu", none, 0xfe00707f, 0x02002033, [], fun w => .mulhsu (rdOf w) (rs1Of w) (rs2Of w)⟩,
  ⟨"mulhu", none, 0xfe00707f, 0x02003033, [], fun w => .mulhu (rdOf w) (rs1Of w) (rs2Of w)⟩,
  ⟨"div", none, 0xfe00707f, 0x02004033, [], fun w => .div (rdOf w) (rs1Of w) (rs2Of w)⟩,
  ⟨"divu", none, 0xfe00707f, 0x02005033, [], fun w => .divu (rdOf w) (rs1Of w) (rs2Of w)⟩,
  ⟨"rem", none, 0xfe00707f, 0x02006033, [], fun w => .rem (rdOf w) (rs1Of w) (rs2Of w)⟩,
  ⟨"remu", none, 0xfe00707f, 0x02007033, [], fun w => .remu (rdOf w) (rs1Of w) (rs2Of w)⟩,
  ⟨"mulw", some .rv64, 0xfe00707f, 0x0200003b, [], fun w => .mulw (rdOf w) (rs1Of w) (rs2Of w)⟩,
  ⟨"divw", some .rv64, 0xfe00707f, 0x0200403b, [], fun w => .divw (rdOf w) (rs1Of w) (rs2Of w)⟩,
  ⟨"divuw", some .rv64, 0xfe00707f, 0x0200503b, [], fun w => .divuw (rdOf w) (rs1Of w) (rs2Of w)⟩,
  ⟨"remw", some .rv64, 0xfe00707f, 0x0200603b, [], fun w => .remw (rdOf w) (rs1Of w) (rs2Of w)⟩,
  ⟨"remuw", some .rv64, 0xfe00707f, 0x0200703b, [], fun w => .remuw (rdOf w) (rs1Of w) (rs2Of w)⟩]

/-- The atomic rows (spec/44_atomic.md). -/
def rowsAtomic : List (Row 32) := [
  ⟨"lr.w", none, 0xf9f0707f, 0x1000202f, [], fun w => .lrW (rdOf w) (rs1Of w) (aqOf w) (rlOf w)⟩,
  ⟨"sc.w", none, 0xf800707f, 0x1800202f, [], fun w => .scW (rdOf w) (rs2Of w) (rs1Of w) (aqOf w) (rlOf w)⟩,
  ⟨"amoswap.w", none, 0xf800707f, 0x0800202f, [], fun w => .amoswapW (rdOf w) (rs2Of w) (rs1Of w) (aqOf w) (rlOf w)⟩,
  ⟨"amoadd.w", none, 0xf800707f, 0x0000202f, [], fun w => .amoaddW (rdOf w) (rs2Of w) (rs1Of w) (aqOf w) (rlOf w)⟩,
  ⟨"amoxor.w", none, 0xf800707f, 0x2000202f, [], fun w => .amoxorW (rdOf w) (rs2Of w) (rs1Of w) (aqOf w) (rlOf w)⟩,
  ⟨"amoand.w", none, 0xf800707f, 0x6000202f, [], fun w => .amoandW (rdOf w) (rs2Of w) (rs1Of w) (aqOf w) (rlOf w)⟩,
  ⟨"amoor.w", none, 0xf800707f, 0x4000202f, [], fun w => .amoorW (rdOf w) (rs2Of w) (rs1Of w) (aqOf w) (rlOf w)⟩,
  ⟨"amomin.w", none, 0xf800707f, 0x8000202f, [], fun w => .amominW (rdOf w) (rs2Of w) (rs1Of w) (aqOf w) (rlOf w)⟩,
  ⟨"amomax.w", none, 0xf800707f, 0xa000202f, [], fun w => .amomaxW (rdOf w) (rs2Of w) (rs1Of w) (aqOf w) (rlOf w)⟩,
  ⟨"amominu.w", none, 0xf800707f, 0xc000202f, [], fun w => .amominuW (rdOf w) (rs2Of w) (rs1Of w) (aqOf w) (rlOf w)⟩,
  ⟨"amomaxu.w", none, 0xf800707f, 0xe000202f, [], fun w => .amomaxuW (rdOf w) (rs2Of w) (rs1Of w) (aqOf w) (rlOf w)⟩,
  ⟨"lr.d", some .rv64, 0xf9f0707f, 0x1000302f, [], fun w => .lrD (rdOf w) (rs1Of w) (aqOf w) (rlOf w)⟩,
  ⟨"sc.d", some .rv64, 0xf800707f, 0x1800302f, [], fun w => .scD (rdOf w) (rs2Of w) (rs1Of w) (aqOf w) (rlOf w)⟩,
  ⟨"amoswap.d", some .rv64, 0xf800707f, 0x0800302f, [], fun w => .amoswapD (rdOf w) (rs2Of w) (rs1Of w) (aqOf w) (rlOf w)⟩,
  ⟨"amoadd.d", some .rv64, 0xf800707f, 0x0000302f, [], fun w => .amoaddD (rdOf w) (rs2Of w) (rs1Of w) (aqOf w) (rlOf w)⟩,
  ⟨"amoxor.d", some .rv64, 0xf800707f, 0x2000302f, [], fun w => .amoxorD (rdOf w) (rs2Of w) (rs1Of w) (aqOf w) (rlOf w)⟩,
  ⟨"amoand.d", some .rv64, 0xf800707f, 0x6000302f, [], fun w => .amoandD (rdOf w) (rs2Of w) (rs1Of w) (aqOf w) (rlOf w)⟩,
  ⟨"amoor.d", some .rv64, 0xf800707f, 0x4000302f, [], fun w => .amoorD (rdOf w) (rs2Of w) (rs1Of w) (aqOf w) (rlOf w)⟩,
  ⟨"amomin.d", some .rv64, 0xf800707f, 0x8000302f, [], fun w => .amominD (rdOf w) (rs2Of w) (rs1Of w) (aqOf w) (rlOf w)⟩,
  ⟨"amomax.d", some .rv64, 0xf800707f, 0xa000302f, [], fun w => .amomaxD (rdOf w) (rs2Of w) (rs1Of w) (aqOf w) (rlOf w)⟩,
  ⟨"amominu.d", some .rv64, 0xf800707f, 0xc000302f, [], fun w => .amominuD (rdOf w) (rs2Of w) (rs1Of w) (aqOf w) (rlOf w)⟩,
  ⟨"amomaxu.d", some .rv64, 0xf800707f, 0xe000302f, [], fun w => .amomaxuD (rdOf w) (rs2Of w) (rs1Of w) (aqOf w) (rlOf w)⟩]

/-- The conversions between floating-point formats (spec/45_float.md, spec/46_float_half_bf16.md). -/
def rowsConvert : List (Row 32) := [
  ⟨"fcvt.s.d", none, 0xfff0007f, 0x40100053, [], fun w => .fcvtSD (rdOf w) (rs1Of w) (rmOf w)⟩,
  ⟨"fcvt.d.s", none, 0xfff0007f, 0x42000053, [], fun w => .fcvtDS (rdOf w) (rs1Of w) (rmOf w)⟩,
  ⟨"fcvt.s.h", none, 0xfff0007f, 0x40200053, [], fun w => .fcvtSH (rdOf w) (rs1Of w) (rmOf w)⟩,
  ⟨"fcvt.h.s", none, 0xfff0007f, 0x44000053, [], fun w => .fcvtHS (rdOf w) (rs1Of w) (rmOf w)⟩,
  ⟨"fcvt.d.h", none, 0xfff0007f, 0x42200053, [], fun w => .fcvtDH (rdOf w) (rs1Of w) (rmOf w)⟩,
  ⟨"fcvt.h.d", none, 0xfff0007f, 0x44100053, [], fun w => .fcvtHD (rdOf w) (rs1Of w) (rmOf w)⟩]

/-- The single-precision rows (spec/45_float.md). -/
def rowsSingle : List (Row 32) := [
  ⟨"flw", none, 0x0000707f, 0x00002007, [], fun w => .flw (rdOf w) (rs1Of w) (imm12Of w)⟩,
  ⟨"fsw", none, 0x0000707f, 0x00002027, [], fun w => .fsw (rs2Of w) (rs1Of w) (immS w)⟩,
  ⟨"fmadd.s", none, 0x0600007f, 0x00000043, [], fun w => .fmaddS (rdOf w) (rs1Of w) (rs2Of w) (rs3Of w) (rmOf w)⟩,
  ⟨"fmsub.s", none, 0x0600007f, 0x00000047, [], fun w => .fmsubS (rdOf w) (rs1Of w) (rs2Of w) (rs3Of w) (rmOf w)⟩,
  ⟨"fnmsub.s", none, 0x0600007f, 0x0000004b, [], fun w => .fnmsubS (rdOf w) (rs1Of w) (rs2Of w) (rs3Of w) (rmOf w)⟩,
  ⟨"fnmadd.s", none, 0x0600007f, 0x0000004f, [], fun w => .fnmaddS (rdOf w) (rs1Of w) (rs2Of w) (rs3Of w) (rmOf w)⟩,
  ⟨"fadd.s", none, 0xfe00007f, 0x00000053, [], fun w => .faddS (rdOf w) (rs1Of w) (rs2Of w) (rmOf w)⟩,
  ⟨"fsub.s", none, 0xfe00007f, 0x08000053, [], fun w => .fsubS (rdOf w) (rs1Of w) (rs2Of w) (rmOf w)⟩,
  ⟨"fmul.s", none, 0xfe00007f, 0x10000053, [], fun w => .fmulS (rdOf w) (rs1Of w) (rs2Of w) (rmOf w)⟩,
  ⟨"fdiv.s", none, 0xfe00007f, 0x18000053, [], fun w => .fdivS (rdOf w) (rs1Of w) (rs2Of w) (rmOf w)⟩,
  ⟨"fsqrt.s", none, 0xfff0007f, 0x58000053, [], fun w => .fsqrtS (rdOf w) (rs1Of w) (rmOf w)⟩,
  ⟨"fsgnj.s", none, 0xfe00707f, 0x20000053, [], fun w => .fsgnjS (rdOf w) (rs1Of w) (rs2Of w)⟩,
  ⟨"fsgnjn.s", none, 0xfe00707f, 0x20001053, [], fun w => .fsgnjnS (rdOf w) (rs1Of w) (rs2Of w)⟩,
  ⟨"fsgnjx.s", none, 0xfe00707f, 0x20002053, [], fun w => .fsgnjxS (rdOf w) (rs1Of w) (rs2Of w)⟩,
  ⟨"fmin.s", none, 0xfe00707f, 0x28000053, [], fun w => .fminS (rdOf w) (rs1Of w) (rs2Of w)⟩,
  ⟨"fmax.s", none, 0xfe00707f, 0x28001053, [], fun w => .fmaxS (rdOf w) (rs1Of w) (rs2Of w)⟩,
  ⟨"feq.s", none, 0xfe00707f, 0xa0002053, [], fun w => .feqS (rdOf w) (rs1Of w) (rs2Of w)⟩,
  ⟨"flt.s", none, 0xfe00707f, 0xa0001053, [], fun w => .fltS (rdOf w) (rs1Of w) (rs2Of w)⟩,
  ⟨"fle.s", none, 0xfe00707f, 0xa0000053, [], fun w => .fleS (rdOf w) (rs1Of w) (rs2Of w)⟩,
  ⟨"fclass.s", none, 0xfff0707f, 0xe0001053, [], fun w => .fclassS (rdOf w) (rs1Of w)⟩,
  ⟨"fcvt.w.s", none, 0xfff0007f, 0xc0000053, [], fun w => .fcvtWS (rdOf w) (rs1Of w) (rmOf w)⟩,
  ⟨"fcvt.s.w", none, 0xfff0007f, 0xd0000053, [], fun w => .fcvtSW (rdOf w) (rs1Of w) (rmOf w)⟩,
  ⟨"fcvt.wu.s", none, 0xfff0007f, 0xc0100053, [], fun w => .fcvtWuS (rdOf w) (rs1Of w) (rmOf w)⟩,
  ⟨"fcvt.s.wu", none, 0xfff0007f, 0xd0100053, [], fun w => .fcvtSWu (rdOf w) (rs1Of w) (rmOf w)⟩,
  ⟨"fcvt.l.s", some .rv64, 0xfff0007f, 0xc0200053, [], fun w => .fcvtLS (rdOf w) (rs1Of w) (rmOf w)⟩,
  ⟨"fcvt.s.l", some .rv64, 0xfff0007f, 0xd0200053, [], fun w => .fcvtSL (rdOf w) (rs1Of w) (rmOf w)⟩,
  ⟨"fcvt.lu.s", some .rv64, 0xfff0007f, 0xc0300053, [], fun w => .fcvtLuS (rdOf w) (rs1Of w) (rmOf w)⟩,
  ⟨"fcvt.s.lu", some .rv64, 0xfff0007f, 0xd0300053, [], fun w => .fcvtSLu (rdOf w) (rs1Of w) (rmOf w)⟩,
  ⟨"fmv.x.w", none, 0xfff0707f, 0xe0000053, [], fun w => .fmvXW (rdOf w) (rs1Of w)⟩,
  ⟨"fmv.w.x", none, 0xfff0707f, 0xf0000053, [], fun w => .fmvWX (rdOf w) (rs1Of w)⟩]

/-- The double-precision rows (spec/45_float.md). -/
def rowsDouble : List (Row 32) := [
  ⟨"fld", none, 0x0000707f, 0x00003007, [], fun w => .fld (rdOf w) (rs1Of w) (imm12Of w)⟩,
  ⟨"fsd", none, 0x0000707f, 0x00003027, [], fun w => .fsd (rs2Of w) (rs1Of w) (immS w)⟩,
  ⟨"fmadd.d", none, 0x0600007f, 0x02000043, [], fun w => .fmaddD (rdOf w) (rs1Of w) (rs2Of w) (rs3Of w) (rmOf w)⟩,
  ⟨"fmsub.d", none, 0x0600007f, 0x02000047, [], fun w => .fmsubD (rdOf w) (rs1Of w) (rs2Of w) (rs3Of w) (rmOf w)⟩,
  ⟨"fnmsub.d", none, 0x0600007f, 0x0200004b, [], fun w => .fnmsubD (rdOf w) (rs1Of w) (rs2Of w) (rs3Of w) (rmOf w)⟩,
  ⟨"fnmadd.d", none, 0x0600007f, 0x0200004f, [], fun w => .fnmaddD (rdOf w) (rs1Of w) (rs2Of w) (rs3Of w) (rmOf w)⟩,
  ⟨"fadd.d", none, 0xfe00007f, 0x02000053, [], fun w => .faddD (rdOf w) (rs1Of w) (rs2Of w) (rmOf w)⟩,
  ⟨"fsub.d", none, 0xfe00007f, 0x0a000053, [], fun w => .fsubD (rdOf w) (rs1Of w) (rs2Of w) (rmOf w)⟩,
  ⟨"fmul.d", none, 0xfe00007f, 0x12000053, [], fun w => .fmulD (rdOf w) (rs1Of w) (rs2Of w) (rmOf w)⟩,
  ⟨"fdiv.d", none, 0xfe00007f, 0x1a000053, [], fun w => .fdivD (rdOf w) (rs1Of w) (rs2Of w) (rmOf w)⟩,
  ⟨"fsqrt.d", none, 0xfff0007f, 0x5a000053, [], fun w => .fsqrtD (rdOf w) (rs1Of w) (rmOf w)⟩,
  ⟨"fsgnj.d", none, 0xfe00707f, 0x22000053, [], fun w => .fsgnjD (rdOf w) (rs1Of w) (rs2Of w)⟩,
  ⟨"fsgnjn.d", none, 0xfe00707f, 0x22001053, [], fun w => .fsgnjnD (rdOf w) (rs1Of w) (rs2Of w)⟩,
  ⟨"fsgnjx.d", none, 0xfe00707f, 0x22002053, [], fun w => .fsgnjxD (rdOf w) (rs1Of w) (rs2Of w)⟩,
  ⟨"fmin.d", none, 0xfe00707f, 0x2a000053, [], fun w => .fminD (rdOf w) (rs1Of w) (rs2Of w)⟩,
  ⟨"fmax.d", none, 0xfe00707f, 0x2a001053, [], fun w => .fmaxD (rdOf w) (rs1Of w) (rs2Of w)⟩,
  ⟨"feq.d", none, 0xfe00707f, 0xa2002053, [], fun w => .feqD (rdOf w) (rs1Of w) (rs2Of w)⟩,
  ⟨"flt.d", none, 0xfe00707f, 0xa2001053, [], fun w => .fltD (rdOf w) (rs1Of w) (rs2Of w)⟩,
  ⟨"fle.d", none, 0xfe00707f, 0xa2000053, [], fun w => .fleD (rdOf w) (rs1Of w) (rs2Of w)⟩,
  ⟨"fclass.d", none, 0xfff0707f, 0xe2001053, [], fun w => .fclassD (rdOf w) (rs1Of w)⟩,
  ⟨"fcvt.w.d", none, 0xfff0007f, 0xc2000053, [], fun w => .fcvtWD (rdOf w) (rs1Of w) (rmOf w)⟩,
  ⟨"fcvt.d.w", none, 0xfff0007f, 0xd2000053, [], fun w => .fcvtDW (rdOf w) (rs1Of w) (rmOf w)⟩,
  ⟨"fcvt.wu.d", none, 0xfff0007f, 0xc2100053, [], fun w => .fcvtWuD (rdOf w) (rs1Of w) (rmOf w)⟩,
  ⟨"fcvt.d.wu", none, 0xfff0007f, 0xd2100053, [], fun w => .fcvtDWu (rdOf w) (rs1Of w) (rmOf w)⟩,
  ⟨"fcvt.l.d", some .rv64, 0xfff0007f, 0xc2200053, [], fun w => .fcvtLD (rdOf w) (rs1Of w) (rmOf w)⟩,
  ⟨"fcvt.d.l", some .rv64, 0xfff0007f, 0xd2200053, [], fun w => .fcvtDL (rdOf w) (rs1Of w) (rmOf w)⟩,
  ⟨"fcvt.lu.d", some .rv64, 0xfff0007f, 0xc2300053, [], fun w => .fcvtLuD (rdOf w) (rs1Of w) (rmOf w)⟩,
  ⟨"fcvt.d.lu", some .rv64, 0xfff0007f, 0xd2300053, [], fun w => .fcvtDLu (rdOf w) (rs1Of w) (rmOf w)⟩,
  ⟨"fmv.x.d", some .rv64, 0xfff0707f, 0xe2000053, [], fun w => .fmvXD (rdOf w) (rs1Of w)⟩,
  ⟨"fmv.d.x", some .rv64, 0xfff0707f, 0xf2000053, [], fun w => .fmvDX (rdOf w) (rs1Of w)⟩]

/-- The half-precision rows (spec/46_float_half_bf16.md). -/
def rowsHalf : List (Row 32) := [
  ⟨"flh", none, 0x0000707f, 0x00001007, [], fun w => .flh (rdOf w) (rs1Of w) (imm12Of w)⟩,
  ⟨"fsh", none, 0x0000707f, 0x00001027, [], fun w => .fsh (rs2Of w) (rs1Of w) (immS w)⟩,
  ⟨"fmadd.h", none, 0x0600007f, 0x04000043, [], fun w => .fmaddH (rdOf w) (rs1Of w) (rs2Of w) (rs3Of w) (rmOf w)⟩,
  ⟨"fmsub.h", none, 0x0600007f, 0x04000047, [], fun w => .fmsubH (rdOf w) (rs1Of w) (rs2Of w) (rs3Of w) (rmOf w)⟩,
  ⟨"fnmsub.h", none, 0x0600007f, 0x0400004b, [], fun w => .fnmsubH (rdOf w) (rs1Of w) (rs2Of w) (rs3Of w) (rmOf w)⟩,
  ⟨"fnmadd.h", none, 0x0600007f, 0x0400004f, [], fun w => .fnmaddH (rdOf w) (rs1Of w) (rs2Of w) (rs3Of w) (rmOf w)⟩,
  ⟨"fadd.h", none, 0xfe00007f, 0x04000053, [], fun w => .faddH (rdOf w) (rs1Of w) (rs2Of w) (rmOf w)⟩,
  ⟨"fsub.h", none, 0xfe00007f, 0x0c000053, [], fun w => .fsubH (rdOf w) (rs1Of w) (rs2Of w) (rmOf w)⟩,
  ⟨"fmul.h", none, 0xfe00007f, 0x14000053, [], fun w => .fmulH (rdOf w) (rs1Of w) (rs2Of w) (rmOf w)⟩,
  ⟨"fdiv.h", none, 0xfe00007f, 0x1c000053, [], fun w => .fdivH (rdOf w) (rs1Of w) (rs2Of w) (rmOf w)⟩,
  ⟨"fsqrt.h", none, 0xfff0007f, 0x5c000053, [], fun w => .fsqrtH (rdOf w) (rs1Of w) (rmOf w)⟩,
  ⟨"fsgnj.h", none, 0xfe00707f, 0x24000053, [], fun w => .fsgnjH (rdOf w) (rs1Of w) (rs2Of w)⟩,
  ⟨"fsgnjn.h", none, 0xfe00707f, 0x24001053, [], fun w => .fsgnjnH (rdOf w) (rs1Of w) (rs2Of w)⟩,
  ⟨"fsgnjx.h", none, 0xfe00707f, 0x24002053, [], fun w => .fsgnjxH (rdOf w) (rs1Of w) (rs2Of w)⟩,
  ⟨"fmin.h", none, 0xfe00707f, 0x2c000053, [], fun w => .fminH (rdOf w) (rs1Of w) (rs2Of w)⟩,
  ⟨"fmax.h", none, 0xfe00707f, 0x2c001053, [], fun w => .fmaxH (rdOf w) (rs1Of w) (rs2Of w)⟩,
  ⟨"feq.h", none, 0xfe00707f, 0xa4002053, [], fun w => .feqH (rdOf w) (rs1Of w) (rs2Of w)⟩,
  ⟨"flt.h", none, 0xfe00707f, 0xa4001053, [], fun w => .fltH (rdOf w) (rs1Of w) (rs2Of w)⟩,
  ⟨"fle.h", none, 0xfe00707f, 0xa4000053, [], fun w => .fleH (rdOf w) (rs1Of w) (rs2Of w)⟩,
  ⟨"fclass.h", none, 0xfff0707f, 0xe4001053, [], fun w => .fclassH (rdOf w) (rs1Of w)⟩,
  ⟨"fcvt.w.h", none, 0xfff0007f, 0xc4000053, [], fun w => .fcvtWH (rdOf w) (rs1Of w) (rmOf w)⟩,
  ⟨"fcvt.h.w", none, 0xfff0007f, 0xd4000053, [], fun w => .fcvtHW (rdOf w) (rs1Of w) (rmOf w)⟩,
  ⟨"fcvt.wu.h", none, 0xfff0007f, 0xc4100053, [], fun w => .fcvtWuH (rdOf w) (rs1Of w) (rmOf w)⟩,
  ⟨"fcvt.h.wu", none, 0xfff0007f, 0xd4100053, [], fun w => .fcvtHWu (rdOf w) (rs1Of w) (rmOf w)⟩,
  ⟨"fcvt.l.h", some .rv64, 0xfff0007f, 0xc4200053, [], fun w => .fcvtLH (rdOf w) (rs1Of w) (rmOf w)⟩,
  ⟨"fcvt.h.l", some .rv64, 0xfff0007f, 0xd4200053, [], fun w => .fcvtHL (rdOf w) (rs1Of w) (rmOf w)⟩,
  ⟨"fcvt.lu.h", some .rv64, 0xfff0007f, 0xc4300053, [], fun w => .fcvtLuH (rdOf w) (rs1Of w) (rmOf w)⟩,
  ⟨"fcvt.h.lu", some .rv64, 0xfff0007f, 0xd4300053, [], fun w => .fcvtHLu (rdOf w) (rs1Of w) (rmOf w)⟩,
  ⟨"fmv.x.h", none, 0xfff0707f, 0xe4000053, [], fun w => .fmvXH (rdOf w) (rs1Of w)⟩,
  ⟨"fmv.h.x", none, 0xfff0707f, 0xf4000053, [], fun w => .fmvHX (rdOf w) (rs1Of w)⟩]

/-- The packed add and subtract rows (spec/47_packed_simd.md). -/
def rowsPackedAddSub : List (Row 32) := [
  ⟨"add16", none, 0xfe00707f, 0x40000077, [], fun w => .add16 (rdOf w) (rs1Of w) (rs2Of w)⟩,
  ⟨"radd16", none, 0xfe00707f, 0x00000077, [], fun w => .radd16 (rdOf w) (rs1Of w) (rs2Of w)⟩,
  ⟨"uradd16", none, 0xfe00707f, 0x20000077, [], fun w => .uradd16 (rdOf w) (rs1Of w) (rs2Of w)⟩,
  ⟨"kadd16", none, 0xfe00707f, 0x10000077, [], fun w => .kadd16 (rdOf w) (rs1Of w) (rs2Of w)⟩,
  ⟨"ukadd16", none, 0xfe00707f, 0x30000077, [], fun w => .ukadd16 (rdOf w) (rs1Of w) (rs2Of w)⟩,
  ⟨"sub16", none, 0xfe00707f, 0x42000077, [], fun w => .sub16 (rdOf w) (rs1Of w) (rs2Of w)⟩,
  ⟨"rsub16", none, 0xfe00707f, 0x02000077, [], fun w => .rsub16 (rdOf w) (rs1Of w) (rs2Of w)⟩,
  ⟨"ursub16", none, 0xfe00707f, 0x22000077, [], fun w => .ursub16 (rdOf w) (rs1Of w) (rs2Of w)⟩,
  ⟨"ksub16", none, 0xfe00707f, 0x12000077, [], fun w => .ksub16 (rdOf w) (rs1Of w) (rs2Of w)⟩,
  ⟨"uksub16", none, 0xfe00707f, 0x32000077, [], fun w => .uksub16 (rdOf w) (rs1Of w) (rs2Of w)⟩,
  ⟨"add8", none, 0xfe00707f, 0x48000077, [], fun w => .add8 (rdOf w) (rs1Of w) (rs2Of w)⟩,
  ⟨"radd8", none, 0xfe00707f, 0x08000077, [], fun w => .radd8 (rdOf w) (rs1Of w) (rs2Of w)⟩,
  ⟨"uradd8", none, 0xfe00707f, 0x28000077, [], fun w => .uradd8 (rdOf w) (rs1Of w) (rs2Of w)⟩,
  ⟨"kadd8", none, 0xfe00707f, 0x18000077, [], fun w => .kadd8 (rdOf w) (rs1Of w) (rs2Of w)⟩,
  ⟨"ukadd8", none, 0xfe00707f, 0x38000077, [], fun w => .ukadd8 (rdOf w) (rs1Of w) (rs2Of w)⟩,
  ⟨"sub8", none, 0xfe00707f, 0x4a000077, [], fun w => .sub8 (rdOf w) (rs1Of w) (rs2Of w)⟩,
  ⟨"rsub8", none, 0xfe00707f, 0x0a000077, [], fun w => .rsub8 (rdOf w) (rs1Of w) (rs2Of w)⟩,
  ⟨"ursub8", none, 0xfe00707f, 0x2a000077, [], fun w => .ursub8 (rdOf w) (rs1Of w) (rs2Of w)⟩,
  ⟨"ksub8", none, 0xfe00707f, 0x1a000077, [], fun w => .ksub8 (rdOf w) (rs1Of w) (rs2Of w)⟩,
  ⟨"uksub8", none, 0xfe00707f, 0x3a000077, [], fun w => .uksub8 (rdOf w) (rs1Of w) (rs2Of w)⟩,
  ⟨"cras16", none, 0xfe00707f, 0x44000077, [], fun w => .cras16 (rdOf w) (rs1Of w) (rs2Of w)⟩,
  ⟨"rcras16", none, 0xfe00707f, 0x04000077, [], fun w => .rcras16 (rdOf w) (rs1Of w) (rs2Of w)⟩,
  ⟨"urcras16", none, 0xfe00707f, 0x24000077, [], fun w => .urcras16 (rdOf w) (rs1Of w) (rs2Of w)⟩,
  ⟨"kcras16", none, 0xfe00707f, 0x14000077, [], fun w => .kcras16 (rdOf w) (rs1Of w) (rs2Of w)⟩,
  ⟨"ukcras16", none, 0xfe00707f, 0x34000077, [], fun w => .ukcras16 (rdOf w) (rs1Of w) (rs2Of w)⟩,
  ⟨"crsa16", none, 0xfe00707f, 0x46000077, [], fun w => .crsa16 (rdOf w) (rs1Of w) (rs2Of w)⟩,
  ⟨"rcrsa16", none, 0xfe00707f, 0x06000077, [], fun w => .rcrsa16 (rdOf w) (rs1Of w) (rs2Of w)⟩,
  ⟨"urcrsa16", none, 0xfe00707f, 0x26000077, [], fun w => .urcrsa16 (rdOf w) (rs1Of w) (rs2Of w)⟩,
  ⟨"kcrsa16", none, 0xfe00707f, 0x16000077, [], fun w => .kcrsa16 (rdOf w) (rs1Of w) (rs2Of w)⟩,
  ⟨"ukcrsa16", none, 0xfe00707f, 0x36000077, [], fun w => .ukcrsa16 (rdOf w) (rs1Of w) (rs2Of w)⟩]

/-- The packed shift, compare, multiply, min/max, clip and abs rows (spec/47_packed_simd.md). -/
def rowsPackedRest : List (Row 32) := [
  ⟨"sra16", none, 0xfe00707f, 0x50000077, [], fun w => .sra16 (rdOf w) (rs1Of w) (rs2Of w)⟩,
  ⟨"sra16.u", none, 0xfe00707f, 0x60000077, [], fun w => .sra16U (rdOf w) (rs1Of w) (rs2Of w)⟩,
  ⟨"srl16", none, 0xfe00707f, 0x52000077, [], fun w => .srl16 (rdOf w) (rs1Of w) (rs2Of w)⟩,
  ⟨"srl16.u", none, 0xfe00707f, 0x62000077, [], fun w => .srl16U (rdOf w) (rs1Of w) (rs2Of w)⟩,
  ⟨"sll16", none, 0xfe00707f, 0x54000077, [], fun w => .sll16 (rdOf w) (rs1Of w) (rs2Of w)⟩,
  ⟨"ksll16", none, 0xfe00707f, 0x64000077, [], fun w => .ksll16 (rdOf w) (rs1Of w) (rs2Of w)⟩,
  ⟨"srai16", none, 0xff00707f, 0x70000077, [], fun w => .srai16 (rdOf w) (rs1Of w) (imm4uOf w)⟩,
  ⟨"srai16.u", none, 0xff00707f, 0x71000077, [], fun w => .srai16U (rdOf w) (rs1Of w) (imm4uOf w)⟩,
  ⟨"srli16", none, 0xff00707f, 0x72000077, [], fun w => .srli16 (rdOf w) (rs1Of w) (imm4uOf w)⟩,
  ⟨"srli16.u", none, 0xff00707f, 0x73000077, [], fun w => .srli16U (rdOf w) (rs1Of w) (imm4uOf w)⟩,
  ⟨"slli16", none, 0xff00707f, 0x74000077, [], fun w => .slli16 (rdOf w) (rs1Of w) (imm4uOf w)⟩,
  ⟨"kslli16", none, 0xff00707f, 0x75000077, [], fun w => .kslli16 (rdOf w) (rs1Of w) (imm4uOf w)⟩,
  ⟨"kslra16", none, 0xfe00707f, 0x56000077, [], fun w => .kslra16 (rdOf w) (rs1Of w) (rs2Of w)⟩,
  ⟨"kslra16.u", none, 0xfe00707f, 0x66000077, [], fun w => .kslra16U (rdOf w) (rs1Of w) (rs2Of w)⟩,
  ⟨"cmpeq16", none, 0xfe00707f, 0x4c000077, [], fun w => .cmpeq16 (rdOf w) (rs1Of w) (rs2Of w)⟩,
  ⟨"scmplt16", none, 0xfe00707f, 0x0c000077, [], fun w => .scmplt16 (rdOf w) (rs1Of w) (rs2Of w)⟩,
  ⟨"scmple16", none, 0xfe00707f, 0x1c000077, [], fun w => .scmple16 (rdOf w) (rs1Of w) (rs2Of w)⟩,
  ⟨"ucmplt16", none, 0xfe00707f, 0x2c000077, [], fun w => .ucmplt16 (rdOf w) (rs1Of w) (rs2Of w)⟩,
  ⟨"ucmple16", none, 0xfe00707f, 0x3c000077, [], fun w => .ucmple16 (rdOf w) (rs1Of w) (rs2Of w)⟩,
  ⟨"cmpeq8", none, 0xfe00707f, 0x4e000077, [], fun w => .cmpeq8 (rdOf w) (rs1Of w) (rs2Of w)⟩,
  ⟨"scmplt8", none, 0xfe00707f, 0x0e000077, [], fun w => .scmplt8 (rdOf w) (rs1Of w) (rs2Of w)⟩,
  ⟨"scmple8", none, 0xfe00707f, 0x1e000077, [], fun w => .scmple8 (rdOf w) (rs1Of w) (rs2Of w)⟩,
  ⟨"ucmplt8", none, 0xfe00707f, 0x2e000077, [], fun w => .ucmplt8 (rdOf w) (rs1Of w) (rs2Of w)⟩,
  ⟨"ucmple8", none, 0xfe00707f, 0x3e000077, [], fun w => .ucmple8 (rdOf w) (rs1Of w) (rs2Of w)⟩,
  ⟨"khm16", none, 0xfe00707f, 0x86000077, [], fun w => .khm16 (rdOf w) (rs1Of w) (rs2Of w)⟩,
  ⟨"khmx16", none, 0xfe00707f, 0x96000077, [], fun w => .khmx16 (rdOf w) (rs1Of w) (rs2Of w)⟩,
  ⟨"khm8", none, 0xfe00707f, 0x8e000077, [], fun w => .khm8 (rdOf w) (rs1Of w) (rs2Of w)⟩,
  ⟨"khmx8", none, 0xfe00707f, 0x9e000077, [], fun w => .khmx8 (rdOf w) (rs1Of w) (rs2Of w)⟩,
  ⟨"smin16", none, 0xfe00707f, 0x80000077, [], fun w => .smin16 (rdOf w) (rs1Of w) (rs2Of w)⟩,
  ⟨"umin16", none, 0xfe00707f, 0x90000077, [], fun w => .umin16 (rdOf w) (rs1Of w) (rs2Of w)⟩,
  ⟨"smax16", none, 0xfe00707f, 0x82000077, [], fun w => .smax16 (rdOf w) (rs1Of w) (rs2Of w)⟩,
  ⟨"umax16", none, 0xfe00707f, 0x92000077, [], fun w => .umax16 (rdOf w) (rs1Of w) (rs2Of w)⟩,
  ⟨"smin8", none, 0xfe00707f, 0x88000077, [], fun w => .smin8 (rdOf w) (rs1Of w) (rs2Of w)⟩,
  ⟨"umin8", none, 0xfe00707f, 0x98000077, [], fun w => .umin8 (rdOf w) (rs1Of w) (rs2Of w)⟩,
  ⟨"smax8", none, 0xfe00707f, 0x8a000077, [], fun w => .smax8 (rdOf w) (rs1Of w) (rs2Of w)⟩,
  ⟨"umax8", none, 0xfe00707f, 0x9a000077, [], fun w => .umax8 (rdOf w) (rs1Of w) (rs2Of w)⟩,
  ⟨"sclip16", none, 0xff00707f, 0x84000077, [], fun w => .sclip16 (rdOf w) (rs1Of w) (imm4uOf w)⟩,
  ⟨"uclip16", none, 0xff00707f, 0x85000077, [], fun w => .uclip16 (rdOf w) (rs1Of w) (imm4uOf w)⟩,
  ⟨"kabs16", none, 0xfff0707f, 0xad100077, [], fun w => .kabs16 (rdOf w) (rs1Of w)⟩,
  ⟨"kabs8", none, 0xfff0707f, 0xad000077, [], fun w => .kabs8 (rdOf w) (rs1Of w)⟩]

/-- The compressed rows (spec/42_compressed.md). -/
def rowsCompressed : List (Row 16) := [
  ⟨"c.addi4spn", none, 0xe003, 0x0000, [(0x1fe0, 0x0000)], fun h => .cAddi4spn (crdOf h) (nzuimmCIW h)⟩,
  ⟨"c.fld", none, 0xe003, 0x2000, [], fun h => .cFld (crdOf h) (crs1Of h) (uimmCLD h)⟩,
  ⟨"c.lw", none, 0xe003, 0x4000, [], fun h => .cLw (crdOf h) (crs1Of h) (uimmCLW h)⟩,
  ⟨"c.flw", some .rv32, 0xe003, 0x6000, [], fun h => .cFlw (crdOf h) (crs1Of h) (uimmCLW h)⟩,
  ⟨"c.ld", some .rv64, 0xe003, 0x6000, [], fun h => .cLd (crdOf h) (crs1Of h) (uimmCLD h)⟩,
  ⟨"c.fsd", none, 0xe003, 0xa000, [], fun h => .cFsd (crdOf h) (crs1Of h) (uimmCLD h)⟩,
  ⟨"c.sw", none, 0xe003, 0xc000, [], fun h => .cSw (crdOf h) (crs1Of h) (uimmCLW h)⟩,
  ⟨"c.fsw", some .rv32, 0xe003, 0xe000, [], fun h => .cFsw (crdOf h) (crs1Of h) (uimmCLW h)⟩,
  ⟨"c.sd", some .rv64, 0xe003, 0xe000, [], fun h => .cSd (crdOf h) (crs1Of h) (uimmCLD h)⟩,
  ⟨"c.nop", none, 0xffff, 0x0001, [], fun _ => .cNop⟩,
  ⟨"c.addi", none, 0xe003, 0x0001, [(0x0f80, 0x0000)], fun h => .cAddi (crdFull h) (imm6 h)⟩,
  ⟨"c.jal", some .rv32, 0xe003, 0x2001, [], fun h => .cJal (offCJ h)⟩,
  ⟨"c.addiw", some .rv64, 0xe003, 0x2001, [(0x0f80, 0x0000)], fun h => .cAddiw (crdFull h) (imm6 h)⟩,
  ⟨"c.li", none, 0xe003, 0x4001, [(0x0f80, 0x0000)], fun h => .cLi (crdFull h) (imm6 h)⟩,
  ⟨"c.addi16sp", none, 0xef83, 0x6101, [(0x107c, 0x0000)], fun h => .cAddi16sp (nzimm16SP h)⟩,
  ⟨"c.lui", none, 0xe003, 0x6001, [(0x0f80, 0x0000), (0x0f80, 0x0100), (0x107c, 0x0000)], fun h => .cLui (crdFull h) (imm6 h)⟩,
  ⟨"c.srli", none, 0xec03, 0x8001, [], fun h => .cSrli (crs1Of h) (imm6 h)⟩,
  ⟨"c.srai", none, 0xec03, 0x8401, [], fun h => .cSrai (crs1Of h) (imm6 h)⟩,
  ⟨"c.andi", none, 0xec03, 0x8801, [], fun h => .cAndi (crs1Of h) (imm6 h)⟩,
  ⟨"c.sub", none, 0xfc63, 0x8c01, [], fun h => .cSub (crs1Of h) (crdOf h)⟩,
  ⟨"c.xor", none, 0xfc63, 0x8c21, [], fun h => .cXor (crs1Of h) (crdOf h)⟩,
  ⟨"c.or", none, 0xfc63, 0x8c41, [], fun h => .cOr (crs1Of h) (crdOf h)⟩,
  ⟨"c.and", none, 0xfc63, 0x8c61, [], fun h => .cAnd (crs1Of h) (crdOf h)⟩,
  ⟨"c.subw", some .rv64, 0xfc63, 0x9c01, [], fun h => .cSubw (crs1Of h) (crdOf h)⟩,
  ⟨"c.addw", some .rv64, 0xfc63, 0x9c21, [], fun h => .cAddw (crs1Of h) (crdOf h)⟩,
  ⟨"c.j", none, 0xe003, 0xa001, [], fun h => .cJ (offCJ h)⟩,
  ⟨"c.beqz", none, 0xe003, 0xc001, [], fun h => .cBeqz (crs1Of h) (offCB h)⟩,
  ⟨"c.bnez", none, 0xe003, 0xe001, [], fun h => .cBnez (crs1Of h) (offCB h)⟩,
  ⟨"c.slli", none, 0xe003, 0x0002, [(0x0f80, 0x0000)], fun h => .cSlli (crdFull h) (imm6 h)⟩,
  ⟨"c.fldsp", none, 0xe003, 0x2002, [], fun h => .cFldsp (crdFull h) (uimmLDSP h)⟩,
  ⟨"c.lwsp", none, 0xe003, 0x4002, [(0x0f80, 0x0000)], fun h => .cLwsp (crdFull h) (uimmLWSP h)⟩,
  ⟨"c.flwsp", some .rv32, 0xe003, 0x6002, [], fun h => .cFlwsp (crdFull h) (uimmLWSP h)⟩,
  ⟨"c.ldsp", some .rv64, 0xe003, 0x6002, [(0x0f80, 0x0000)], fun h => .cLdsp (crdFull h) (uimmLDSP h)⟩,
  ⟨"c.jr", none, 0xf07f, 0x8002, [(0x0f80, 0x0000)], fun h => .cJr (crdFull h)⟩,
  ⟨"c.mv", none, 0xf003, 0x8002, [(0x0f80, 0x0000), (0x007c, 0x0000)], fun h => .cMv (crdFull h) (crs2Full h)⟩,
  ⟨"c.ebreak", none, 0xffff, 0x9002, [], fun _ => .cEbreak⟩,
  ⟨"c.jalr", none, 0xf07f, 0x9002, [(0x0f80, 0x0000)], fun h => .cJalr (crdFull h)⟩,
  ⟨"c.add", none, 0xf003, 0x9002, [(0x0f80, 0x0000), (0x007c, 0x0000)], fun h => .cAdd (crdFull h) (crs2Full h)⟩,
  ⟨"c.fsdsp", none, 0xe003, 0xa002, [], fun h => .cFsdsp (crs2Full h) (uimmSDSP h)⟩,
  ⟨"c.swsp", none, 0xe003, 0xc002, [], fun h => .cSwsp (crs2Full h) (uimmSWSP h)⟩,
  ⟨"c.fswsp", some .rv32, 0xe003, 0xe002, [], fun h => .cFswsp (crs2Full h) (uimmSWSP h)⟩,
  ⟨"c.sdsp", some .rv64, 0xe003, 0xe002, [], fun h => .cSdsp (crs2Full h) (uimmSDSP h)⟩]

/-- The 32-bit rows in table order. -/
def rowsFull : List (Row 32) :=
  rowsBase ++ rowsMulDiv ++ rowsAtomic ++ rowsConvert ++ rowsSingle ++ rowsDouble ++ rowsHalf ++ rowsPackedAddSub ++
    rowsPackedRest

/-- The instruction of a 16-bit word of a supplied OPEN encoding. -/
def OpenHalf.instr : OpenHalf → Instr
  | .execIt index => .execIt index
  | .lmw rb first last mode paired => .lmw rb first last ⟨mode, .half⟩ paired
  | .smw rb first last mode paired => .smw rb first last ⟨mode, .half⟩ paired

/-- The instruction of a 32-bit word of a supplied OPEN encoding. -/
def OpenFull.instr : OpenFull → Instr
  | .lmw rb first last mode paired => .lmw rb first last ⟨mode, .full⟩ paired
  | .smw rb first last mode paired => .smw rb first last ⟨mode, .full⟩ paired
  | .fcvtSBf16 rd rs1 => .fcvtSBf16 rd rs1
  | .fcvtBf16S rd rs1 => .fcvtBf16S rd rs1

/-- The OPEN instruction a supplied encoding gives a 16-bit word. -/
def openHalf (h : BitVec 16) : List OpenRow → Option Instr
  | [] => none
  | .half h' i :: rows => if h = h' then some i.instr else openHalf h rows
  | .full _ _ :: rows => openHalf h rows

/-- The OPEN instruction a supplied encoding gives a 32-bit word. -/
def openFull (w : BitVec 32) : List OpenRow → Option Instr
  | [] => none
  | .full w' i :: rows => if w = w' then some i.instr else openFull w rows
  | .half _ _ :: rows => openFull w rows

/-- What an unmatched 32-bit word is (spec/30_encoding.md R46, R47). -/
def rejectFull (w : BitVec 32) : Reject :=
  if opcodeOf w = 0x77 then .packedSpace
  else if opcodeOf w = 0x0b ∨ opcodeOf w = 0x2b ∨ opcodeOf w = 0x5b ∨ opcodeOf w = 0x7b then .customSpace
  else .illegal

/-- What an unmatched 16-bit word is: 0x0000 and a word of a row of the other XLEN are illegal, every other is refused
(spec/30_encoding.md R44, R47). -/
def rejectHalf (h : BitVec 16) : Reject :=
  if h = 0 then .illegal
  else if rowsCompressed.any fun r => r.accepts h then .illegal
  else .unmatchedHalf

/-- Decode a 32-bit word (spec/30_encoding.md R45, R46, R47). -/
def decodeFull (xlen : Xlen) (openRows : List OpenRow) (w : BitVec 32) : Except Reject Instr :=
  match firstMatch xlen w rowsFull with
  | some r => .ok (r.build w)
  | none =>
    match openFull w openRows with
    | some i => .ok i
    | none => .error (rejectFull w)

/-- Decode a 16-bit word (spec/30_encoding.md R45, R46, R47). -/
def decodeHalf (xlen : Xlen) (openRows : List OpenRow) (h : BitVec 16) : Except Reject Instr :=
  match firstMatch xlen h rowsCompressed with
  | some r => .ok (r.build h)
  | none =>
    match openHalf h openRows with
    | some i => .ok i
    | none => .error (rejectHalf h)

/-- Decode a word of either length. -/
def decode (xlen : Xlen) (openRows : List OpenRow) : Parcel → Except Reject Instr
  | .half h => decodeHalf xlen openRows h
  | .full w => decodeFull xlen openRows w

/-- The length test on the first halfword: 32 bits when its low two bits are 0b11 (spec/30_encoding.md R40). -/
def isFull (h : BitVec 16) : Bool := h.extractLsb' 0 2 == 3

/-- Decode the instruction at the head of a list of bytes, little-endian halfwords with the first halfword the low one
(spec/20_memory.md R32), and give the rest of the list. -/
def decodeBytes (xlen : Xlen) (openRows : List OpenRow) : List Byte → Except Reject (Instr × List Byte)
  | b0 :: b1 :: rest =>
    let h : BitVec 16 := b1 ++ b0
    if isFull h then
      match rest with
      | b2 :: b3 :: rest' => (decodeFull xlen openRows (b3 ++ b2 ++ b1 ++ b0)).map fun i => (i, rest')
      | _ => .error .tooShort
    else (decodeHalf xlen openRows h).map fun i => (i, rest)
  | _ => .error .tooShort

/-- The four bytes of a table word as the hardware stores them: bits 7:0 at the lowest address. -/
def tableBytes (nbits w : Nat) : List Byte :=
  let v : BitVec 32 := BitVec.ofNat 32 (w % 2 ^ nbits)
  [v.extractLsb' 0 8, v.extractLsb' 8 8, v.extractLsb' 16 8, v.extractLsb' 24 8]

/-- The instruction the decoder reads from the table's word, under RV64 and with no OPEN encoding supplied, as after
reset (logs 1, 25). -/
def decodeTableWord (nbits w : Nat) : Option Instr :=
  match decodeBytes .rv64 [] (tableBytes nbits w) with
  | .ok (i, _) => some i
  | .error _ => none

/-! The encoder: fields placed by format (spec/30_encoding.md R41, R42, R43). -/

def encR (funct7 : BitVec 7) (rs2 rs1 : BitVec 5) (funct3 : BitVec 3) (rd : BitVec 5) (op : BitVec 7) : BitVec 32 :=
  funct7 ++ rs2 ++ rs1 ++ funct3 ++ rd ++ op

def encR4 (rs3 : BitVec 5) (fmt : BitVec 2) (rs2 rs1 : BitVec 5) (rm : BitVec 3) (rd : BitVec 5) (op : BitVec 7) : BitVec 32 :=
  rs3 ++ fmt ++ rs2 ++ rs1 ++ rm ++ rd ++ op

def encI (imm : BitVec 12) (rs1 : BitVec 5) (funct3 : BitVec 3) (rd : BitVec 5) (op : BitVec 7) : BitVec 32 :=
  imm ++ rs1 ++ funct3 ++ rd ++ op

def encIsh (funct6 shamt : BitVec 6) (rs1 : BitVec 5) (funct3 : BitVec 3) (rd : BitVec 5) (op : BitVec 7) : BitVec 32 :=
  funct6 ++ shamt ++ rs1 ++ funct3 ++ rd ++ op

def encS (imm : BitVec 12) (rs2 rs1 : BitVec 5) (funct3 : BitVec 3) (op : BitVec 7) : BitVec 32 :=
  imm.extractLsb' 5 7 ++ rs2 ++ rs1 ++ funct3 ++ imm.extractLsb' 0 5 ++ op

/-- `off` is imm[12:1]. -/
def encB (off : BitVec 12) (rs2 rs1 : BitVec 5) (funct3 : BitVec 3) (op : BitVec 7) : BitVec 32 :=
  off.extractLsb' 11 1 ++ off.extractLsb' 4 6 ++ rs2 ++ rs1 ++ funct3 ++ off.extractLsb' 0 4 ++ off.extractLsb' 10 1 ++ op

def encU (imm20 : BitVec 20) (rd : BitVec 5) (op : BitVec 7) : BitVec 32 :=
  imm20 ++ rd ++ op

/-- `off` is imm[20:1]. -/
def encJ (off : BitVec 20) (rd : BitVec 5) (op : BitVec 7) : BitVec 32 :=
  off.extractLsb' 19 1 ++ off.extractLsb' 0 10 ++ off.extractLsb' 10 1 ++ off.extractLsb' 11 8 ++ rd ++ op

def encAmo (funct5 : BitVec 5) (aq rl : BitVec 1) (rs2 rs1 : BitVec 5) (funct3 : BitVec 3) (rd : BitVec 5) (op : BitVec 7) :
    BitVec 32 :=
  funct5 ++ aq ++ rl ++ rs2 ++ rs1 ++ funct3 ++ rd ++ op

def encFence (fm pred succ : BitVec 4) (rs1 : BitVec 5) (funct3 : BitVec 3) (rd : BitVec 5) (op : BitVec 7) : BitVec 32 :=
  fm ++ pred ++ succ ++ rs1 ++ funct3 ++ rd ++ op

/-- `sel` is funct7 with the selector bit 24 below it. -/
def encImm4 (sel : BitVec 8) (imm4u : BitVec 4) (rs1 : BitVec 5) (funct3 : BitVec 3) (rd : BitVec 5) (op : BitVec 7) : BitVec 32 :=
  sel ++ imm4u ++ rs1 ++ funct3 ++ rd ++ op

def encCR (funct4 : BitVec 4) (rd rs2 : BitVec 5) (op : BitVec 2) : BitVec 16 :=
  funct4 ++ rd ++ rs2 ++ op

def encCI (funct3 : BitVec 3) (imm : BitVec 6) (rd : BitVec 5) (op : BitVec 2) : BitVec 16 :=
  funct3 ++ imm.extractLsb' 5 1 ++ rd ++ imm.extractLsb' 0 5 ++ op

def encCIW (funct3 : BitVec 3) (nzuimm : BitVec 8) (rd : BitVec 3) (op : BitVec 2) : BitVec 16 :=
  funct3 ++ nzuimm.extractLsb' 2 2 ++ nzuimm.extractLsb' 4 4 ++ nzuimm.extractLsb' 0 1 ++ nzuimm.extractLsb' 1 1 ++ rd ++ op

/-- CL-D and CS-D: `uimm` is uimm[7:3]. -/
def encCLD (funct3 : BitVec 3) (uimm : BitVec 5) (rs1 r : BitVec 3) (op : BitVec 2) : BitVec 16 :=
  funct3 ++ uimm.extractLsb' 0 3 ++ rs1 ++ uimm.extractLsb' 3 2 ++ r ++ op

/-- CL-W and CS-W: `uimm` is uimm[6:2]. -/
def encCLW (funct3 : BitVec 3) (uimm : BitVec 5) (rs1 r : BitVec 3) (op : BitVec 2) : BitVec 16 :=
  funct3 ++ uimm.extractLsb' 1 3 ++ rs1 ++ uimm.extractLsb' 0 1 ++ uimm.extractLsb' 4 1 ++ r ++ op

/-- CI-16SP: `nzimm` is nzimm[9:4]. -/
def enc16SP (funct3 : BitVec 3) (nzimm : BitVec 6) (op : BitVec 2) : BitVec 16 :=
  funct3 ++ nzimm.extractLsb' 5 1 ++ 2#5 ++ nzimm.extractLsb' 0 1 ++ nzimm.extractLsb' 2 1 ++ nzimm.extractLsb' 3 2 ++
    nzimm.extractLsb' 1 1 ++ op

/-- CB-SH and CB-ANDI. -/
def encCBI (funct3 : BitVec 3) (funct2 : BitVec 2) (imm : BitVec 6) (rd : BitVec 3) (op : BitVec 2) : BitVec 16 :=
  funct3 ++ imm.extractLsb' 5 1 ++ funct2 ++ rd ++ imm.extractLsb' 0 5 ++ op

def encCA (funct6 : BitVec 6) (rd : BitVec 3) (funct2 : BitVec 2) (rs2 : BitVec 3) (op : BitVec 2) : BitVec 16 :=
  funct6 ++ rd ++ funct2 ++ rs2 ++ op

/-- `off` is offset[11:1]. -/
def encCJ (funct3 : BitVec 3) (off : BitVec 11) (op : BitVec 2) : BitVec 16 :=
  funct3 ++ off.extractLsb' 10 1 ++ off.extractLsb' 3 1 ++ off.extractLsb' 7 2 ++ off.extractLsb' 9 1 ++ off.extractLsb' 5 1 ++
    off.extractLsb' 6 1 ++ off.extractLsb' 0 3 ++ off.extractLsb' 4 1 ++ op

/-- `off` is offset[8:1]. -/
def encCB (funct3 : BitVec 3) (off : BitVec 8) (rs1 : BitVec 3) (op : BitVec 2) : BitVec 16 :=
  funct3 ++ off.extractLsb' 7 1 ++ off.extractLsb' 2 2 ++ rs1 ++ off.extractLsb' 5 2 ++ off.extractLsb' 0 2 ++
    off.extractLsb' 4 1 ++ op

/-- `uimm` is uimm[8:3]. -/
def encLDSP (funct3 : BitVec 3) (uimm : BitVec 6) (rd : BitVec 5) (op : BitVec 2) : BitVec 16 :=
  funct3 ++ uimm.extractLsb' 2 1 ++ rd ++ uimm.extractLsb' 0 2 ++ uimm.extractLsb' 3 3 ++ op

/-- `uimm` is uimm[7:2]. -/
def encLWSP (funct3 : BitVec 3) (uimm : BitVec 6) (rd : BitVec 5) (op : BitVec 2) : BitVec 16 :=
  funct3 ++ uimm.extractLsb' 3 1 ++ rd ++ uimm.extractLsb' 0 3 ++ uimm.extractLsb' 4 2 ++ op

/-- `uimm` is uimm[8:3]. -/
def encSDSP (funct3 : BitVec 3) (uimm : BitVec 6) (rs2 : BitVec 5) (op : BitVec 2) : BitVec 16 :=
  funct3 ++ uimm.extractLsb' 0 3 ++ uimm.extractLsb' 3 3 ++ rs2 ++ op

/-- `uimm` is uimm[7:2]. -/
def encSWSP (funct3 : BitVec 3) (uimm : BitVec 6) (rs2 : BitVec 5) (op : BitVec 2) : BitVec 16 :=
  funct3 ++ uimm.extractLsb' 0 4 ++ uimm.extractLsb' 4 2 ++ rs2 ++ op

/-- The word of an instruction, `none` for the OPEN rows, which have no encoding in the spec (spec/30_encoding.md R45). -/
def encode : Instr → Option Parcel
  | .lui rd imm20 => some (.full (encU imm20 rd 0x37))
  | .auipc rd imm20 => some (.full (encU imm20 rd 0x17))
  | .jal rd off => some (.full (encJ off rd 0x6f))
  | .jalr rd rs1 imm => some (.full (encI imm rs1 0 rd 0x67))
  | .beq rs1 rs2 off => some (.full (encB off rs2 rs1 0 0x63))
  | .bne rs1 rs2 off => some (.full (encB off rs2 rs1 1 0x63))
  | .blt rs1 rs2 off => some (.full (encB off rs2 rs1 4 0x63))
  | .bge rs1 rs2 off => some (.full (encB off rs2 rs1 5 0x63))
  | .bltu rs1 rs2 off => some (.full (encB off rs2 rs1 6 0x63))
  | .bgeu rs1 rs2 off => some (.full (encB off rs2 rs1 7 0x63))
  | .lb rd rs1 imm => some (.full (encI imm rs1 0 rd 0x03))
  | .lh rd rs1 imm => some (.full (encI imm rs1 1 rd 0x03))
  | .lw rd rs1 imm => some (.full (encI imm rs1 2 rd 0x03))
  | .lbu rd rs1 imm => some (.full (encI imm rs1 4 rd 0x03))
  | .lhu rd rs1 imm => some (.full (encI imm rs1 5 rd 0x03))
  | .lwu rd rs1 imm => some (.full (encI imm rs1 6 rd 0x03))
  | .ld rd rs1 imm => some (.full (encI imm rs1 3 rd 0x03))
  | .sb rs2 rs1 imm => some (.full (encS imm rs2 rs1 0 0x23))
  | .sh rs2 rs1 imm => some (.full (encS imm rs2 rs1 1 0x23))
  | .sw rs2 rs1 imm => some (.full (encS imm rs2 rs1 2 0x23))
  | .sd rs2 rs1 imm => some (.full (encS imm rs2 rs1 3 0x23))
  | .addi rd rs1 imm => some (.full (encI imm rs1 0 rd 0x13))
  | .slti rd rs1 imm => some (.full (encI imm rs1 2 rd 0x13))
  | .sltiu rd rs1 imm => some (.full (encI imm rs1 3 rd 0x13))
  | .xori rd rs1 imm => some (.full (encI imm rs1 4 rd 0x13))
  | .ori rd rs1 imm => some (.full (encI imm rs1 6 rd 0x13))
  | .andi rd rs1 imm => some (.full (encI imm rs1 7 rd 0x13))
  | .slli rd rs1 shamt => some (.full (encIsh 0x00 shamt rs1 1 rd 0x13))
  | .srli rd rs1 shamt => some (.full (encIsh 0x00 shamt rs1 5 rd 0x13))
  | .srai rd rs1 shamt => some (.full (encIsh 0x10 shamt rs1 5 rd 0x13))
  | .add rd rs1 rs2 => some (.full (encR 0x00 rs2 rs1 0 rd 0x33))
  | .sub rd rs1 rs2 => some (.full (encR 0x20 rs2 rs1 0 rd 0x33))
  | .sll rd rs1 rs2 => some (.full (encR 0x00 rs2 rs1 1 rd 0x33))
  | .slt rd rs1 rs2 => some (.full (encR 0x00 rs2 rs1 2 rd 0x33))
  | .sltu rd rs1 rs2 => some (.full (encR 0x00 rs2 rs1 3 rd 0x33))
  | .xor rd rs1 rs2 => some (.full (encR 0x00 rs2 rs1 4 rd 0x33))
  | .srl rd rs1 rs2 => some (.full (encR 0x00 rs2 rs1 5 rd 0x33))
  | .sra rd rs1 rs2 => some (.full (encR 0x20 rs2 rs1 5 rd 0x33))
  | .or rd rs1 rs2 => some (.full (encR 0x00 rs2 rs1 6 rd 0x33))
  | .and rd rs1 rs2 => some (.full (encR 0x00 rs2 rs1 7 rd 0x33))
  | .addiw rd rs1 imm => some (.full (encI imm rs1 0 rd 0x1b))
  | .slliw rd rs1 shamt => some (.full (encR 0x00 shamt rs1 1 rd 0x1b))
  | .srliw rd rs1 shamt => some (.full (encR 0x00 shamt rs1 5 rd 0x1b))
  | .sraiw rd rs1 shamt => some (.full (encR 0x20 shamt rs1 5 rd 0x1b))
  | .addw rd rs1 rs2 => some (.full (encR 0x00 rs2 rs1 0 rd 0x3b))
  | .subw rd rs1 rs2 => some (.full (encR 0x20 rs2 rs1 0 rd 0x3b))
  | .sllw rd rs1 rs2 => some (.full (encR 0x00 rs2 rs1 1 rd 0x3b))
  | .srlw rd rs1 rs2 => some (.full (encR 0x00 rs2 rs1 5 rd 0x3b))
  | .sraw rd rs1 rs2 => some (.full (encR 0x20 rs2 rs1 5 rd 0x3b))
  | .fence fm pred succ rs1 rd => some (.full (encFence fm pred succ rs1 0 rd 0x0f))
  | .fenceI rd rs1 imm => some (.full (encI imm rs1 1 rd 0x0f))
  | .ecall => some (.full (encI 0x000 0 0 0 0x73))
  | .ebreak => some (.full (encI 0x001 0 0 0 0x73))
  | .csrrw rd csr rs1 => some (.full (encI csr rs1 1 rd 0x73))
  | .csrrs rd csr rs1 => some (.full (encI csr rs1 2 rd 0x73))
  | .csrrc rd csr rs1 => some (.full (encI csr rs1 3 rd 0x73))
  | .csrrwi rd csr uimm => some (.full (encI csr uimm 5 rd 0x73))
  | .csrrsi rd csr uimm => some (.full (encI csr uimm 6 rd 0x73))
  | .csrrci rd csr uimm => some (.full (encI csr uimm 7 rd 0x73))
  | .cAddi4spn rd nzuimm => some (.half (encCIW 0 nzuimm rd 0))
  | .cFld rd rs1 uimm => some (.half (encCLD 1 uimm rs1 rd 0))
  | .cLw rd rs1 uimm => some (.half (encCLW 2 uimm rs1 rd 0))
  | .cFlw rd rs1 uimm => some (.half (encCLW 3 uimm rs1 rd 0))
  | .cLd rd rs1 uimm => some (.half (encCLD 3 uimm rs1 rd 0))
  | .cFsd rs2 rs1 uimm => some (.half (encCLD 5 uimm rs1 rs2 0))
  | .cSw rs2 rs1 uimm => some (.half (encCLW 6 uimm rs1 rs2 0))
  | .cFsw rs2 rs1 uimm => some (.half (encCLW 7 uimm rs1 rs2 0))
  | .cSd rs2 rs1 uimm => some (.half (encCLD 7 uimm rs1 rs2 0))
  | .cNop => some (.half (encCI 0 0 0 1))
  | .cAddi rd imm => some (.half (encCI 0 imm rd 1))
  | .cJal off => some (.half (encCJ 1 off 1))
  | .cAddiw rd imm => some (.half (encCI 1 imm rd 1))
  | .cLi rd imm => some (.half (encCI 2 imm rd 1))
  | .cAddi16sp nzimm => some (.half (enc16SP 3 nzimm 1))
  | .cLui rd nzimm => some (.half (encCI 3 nzimm rd 1))
  | .cSrli rd shamt => some (.half (encCBI 4 0 shamt rd 1))
  | .cSrai rd shamt => some (.half (encCBI 4 1 shamt rd 1))
  | .cAndi rd imm => some (.half (encCBI 4 2 imm rd 1))
  | .cSub rd rs2 => some (.half (encCA 0x23 rd 0 rs2 1))
  | .cXor rd rs2 => some (.half (encCA 0x23 rd 1 rs2 1))
  | .cOr rd rs2 => some (.half (encCA 0x23 rd 2 rs2 1))
  | .cAnd rd rs2 => some (.half (encCA 0x23 rd 3 rs2 1))
  | .cSubw rd rs2 => some (.half (encCA 0x27 rd 0 rs2 1))
  | .cAddw rd rs2 => some (.half (encCA 0x27 rd 1 rs2 1))
  | .cJ off => some (.half (encCJ 5 off 1))
  | .cBeqz rs1 off => some (.half (encCB 6 off rs1 1))
  | .cBnez rs1 off => some (.half (encCB 7 off rs1 1))
  | .cSlli rd shamt => some (.half (encCI 0 shamt rd 2))
  | .cFldsp rd uimm => some (.half (encLDSP 1 uimm rd 2))
  | .cLwsp rd uimm => some (.half (encLWSP 2 uimm rd 2))
  | .cFlwsp rd uimm => some (.half (encLWSP 3 uimm rd 2))
  | .cLdsp rd uimm => some (.half (encLDSP 3 uimm rd 2))
  | .cJr rs1 => some (.half (encCR 8 rs1 0 2))
  | .cMv rd rs2 => some (.half (encCR 8 rd rs2 2))
  | .cEbreak => some (.half (encCR 9 0 0 2))
  | .cJalr rs1 => some (.half (encCR 9 rs1 0 2))
  | .cAdd rd rs2 => some (.half (encCR 9 rd rs2 2))
  | .cFsdsp rs2 uimm => some (.half (encSDSP 5 uimm rs2 2))
  | .cSwsp rs2 uimm => some (.half (encSWSP 6 uimm rs2 2))
  | .cFswsp rs2 uimm => some (.half (encSWSP 7 uimm rs2 2))
  | .cSdsp rs2 uimm => some (.half (encSDSP 7 uimm rs2 2))
  | .mul rd rs1 rs2 => some (.full (encR 0x01 rs2 rs1 0 rd 0x33))
  | .mulh rd rs1 rs2 => some (.full (encR 0x01 rs2 rs1 1 rd 0x33))
  | .mulhsu rd rs1 rs2 => some (.full (encR 0x01 rs2 rs1 2 rd 0x33))
  | .mulhu rd rs1 rs2 => some (.full (encR 0x01 rs2 rs1 3 rd 0x33))
  | .div rd rs1 rs2 => some (.full (encR 0x01 rs2 rs1 4 rd 0x33))
  | .divu rd rs1 rs2 => some (.full (encR 0x01 rs2 rs1 5 rd 0x33))
  | .rem rd rs1 rs2 => some (.full (encR 0x01 rs2 rs1 6 rd 0x33))
  | .remu rd rs1 rs2 => some (.full (encR 0x01 rs2 rs1 7 rd 0x33))
  | .mulw rd rs1 rs2 => some (.full (encR 0x01 rs2 rs1 0 rd 0x3b))
  | .divw rd rs1 rs2 => some (.full (encR 0x01 rs2 rs1 4 rd 0x3b))
  | .divuw rd rs1 rs2 => some (.full (encR 0x01 rs2 rs1 5 rd 0x3b))
  | .remw rd rs1 rs2 => some (.full (encR 0x01 rs2 rs1 6 rd 0x3b))
  | .remuw rd rs1 rs2 => some (.full (encR 0x01 rs2 rs1 7 rd 0x3b))
  | .lrW rd rs1 aq rl => some (.full (encAmo 0x02 aq rl 0 rs1 2 rd 0x2f))
  | .scW rd rs2 rs1 aq rl => some (.full (encAmo 0x03 aq rl rs2 rs1 2 rd 0x2f))
  | .amoswapW rd rs2 rs1 aq rl => some (.full (encAmo 0x01 aq rl rs2 rs1 2 rd 0x2f))
  | .amoaddW rd rs2 rs1 aq rl => some (.full (encAmo 0x00 aq rl rs2 rs1 2 rd 0x2f))
  | .amoxorW rd rs2 rs1 aq rl => some (.full (encAmo 0x04 aq rl rs2 rs1 2 rd 0x2f))
  | .amoandW rd rs2 rs1 aq rl => some (.full (encAmo 0x0c aq rl rs2 rs1 2 rd 0x2f))
  | .amoorW rd rs2 rs1 aq rl => some (.full (encAmo 0x08 aq rl rs2 rs1 2 rd 0x2f))
  | .amominW rd rs2 rs1 aq rl => some (.full (encAmo 0x10 aq rl rs2 rs1 2 rd 0x2f))
  | .amomaxW rd rs2 rs1 aq rl => some (.full (encAmo 0x14 aq rl rs2 rs1 2 rd 0x2f))
  | .amominuW rd rs2 rs1 aq rl => some (.full (encAmo 0x18 aq rl rs2 rs1 2 rd 0x2f))
  | .amomaxuW rd rs2 rs1 aq rl => some (.full (encAmo 0x1c aq rl rs2 rs1 2 rd 0x2f))
  | .lrD rd rs1 aq rl => some (.full (encAmo 0x02 aq rl 0 rs1 3 rd 0x2f))
  | .scD rd rs2 rs1 aq rl => some (.full (encAmo 0x03 aq rl rs2 rs1 3 rd 0x2f))
  | .amoswapD rd rs2 rs1 aq rl => some (.full (encAmo 0x01 aq rl rs2 rs1 3 rd 0x2f))
  | .amoaddD rd rs2 rs1 aq rl => some (.full (encAmo 0x00 aq rl rs2 rs1 3 rd 0x2f))
  | .amoxorD rd rs2 rs1 aq rl => some (.full (encAmo 0x04 aq rl rs2 rs1 3 rd 0x2f))
  | .amoandD rd rs2 rs1 aq rl => some (.full (encAmo 0x0c aq rl rs2 rs1 3 rd 0x2f))
  | .amoorD rd rs2 rs1 aq rl => some (.full (encAmo 0x08 aq rl rs2 rs1 3 rd 0x2f))
  | .amominD rd rs2 rs1 aq rl => some (.full (encAmo 0x10 aq rl rs2 rs1 3 rd 0x2f))
  | .amomaxD rd rs2 rs1 aq rl => some (.full (encAmo 0x14 aq rl rs2 rs1 3 rd 0x2f))
  | .amominuD rd rs2 rs1 aq rl => some (.full (encAmo 0x18 aq rl rs2 rs1 3 rd 0x2f))
  | .amomaxuD rd rs2 rs1 aq rl => some (.full (encAmo 0x1c aq rl rs2 rs1 3 rd 0x2f))
  | .fcvtSD rd rs1 rm => some (.full (encR 0x20 1 rs1 rm rd 0x53))
  | .fcvtDS rd rs1 rm => some (.full (encR 0x21 0 rs1 rm rd 0x53))
  | .fcvtSH rd rs1 rm => some (.full (encR 0x20 2 rs1 rm rd 0x53))
  | .fcvtHS rd rs1 rm => some (.full (encR 0x22 0 rs1 rm rd 0x53))
  | .fcvtDH rd rs1 rm => some (.full (encR 0x21 2 rs1 rm rd 0x53))
  | .fcvtHD rd rs1 rm => some (.full (encR 0x22 1 rs1 rm rd 0x53))
  | .flw rd rs1 imm => some (.full (encI imm rs1 2 rd 0x07))
  | .fsw rs2 rs1 imm => some (.full (encS imm rs2 rs1 2 0x27))
  | .fmaddS rd rs1 rs2 rs3 rm => some (.full (encR4 rs3 0 rs2 rs1 rm rd 0x43))
  | .fmsubS rd rs1 rs2 rs3 rm => some (.full (encR4 rs3 0 rs2 rs1 rm rd 0x47))
  | .fnmsubS rd rs1 rs2 rs3 rm => some (.full (encR4 rs3 0 rs2 rs1 rm rd 0x4b))
  | .fnmaddS rd rs1 rs2 rs3 rm => some (.full (encR4 rs3 0 rs2 rs1 rm rd 0x4f))
  | .faddS rd rs1 rs2 rm => some (.full (encR 0x00 rs2 rs1 rm rd 0x53))
  | .fsubS rd rs1 rs2 rm => some (.full (encR 0x04 rs2 rs1 rm rd 0x53))
  | .fmulS rd rs1 rs2 rm => some (.full (encR 0x08 rs2 rs1 rm rd 0x53))
  | .fdivS rd rs1 rs2 rm => some (.full (encR 0x0c rs2 rs1 rm rd 0x53))
  | .fsqrtS rd rs1 rm => some (.full (encR 0x2c 0 rs1 rm rd 0x53))
  | .fsgnjS rd rs1 rs2 => some (.full (encR 0x10 rs2 rs1 0 rd 0x53))
  | .fsgnjnS rd rs1 rs2 => some (.full (encR 0x10 rs2 rs1 1 rd 0x53))
  | .fsgnjxS rd rs1 rs2 => some (.full (encR 0x10 rs2 rs1 2 rd 0x53))
  | .fminS rd rs1 rs2 => some (.full (encR 0x14 rs2 rs1 0 rd 0x53))
  | .fmaxS rd rs1 rs2 => some (.full (encR 0x14 rs2 rs1 1 rd 0x53))
  | .feqS rd rs1 rs2 => some (.full (encR 0x50 rs2 rs1 2 rd 0x53))
  | .fltS rd rs1 rs2 => some (.full (encR 0x50 rs2 rs1 1 rd 0x53))
  | .fleS rd rs1 rs2 => some (.full (encR 0x50 rs2 rs1 0 rd 0x53))
  | .fclassS rd rs1 => some (.full (encR 0x70 0 rs1 1 rd 0x53))
  | .fcvtWS rd rs1 rm => some (.full (encR 0x60 0 rs1 rm rd 0x53))
  | .fcvtSW rd rs1 rm => some (.full (encR 0x68 0 rs1 rm rd 0x53))
  | .fcvtWuS rd rs1 rm => some (.full (encR 0x60 1 rs1 rm rd 0x53))
  | .fcvtSWu rd rs1 rm => some (.full (encR 0x68 1 rs1 rm rd 0x53))
  | .fcvtLS rd rs1 rm => some (.full (encR 0x60 2 rs1 rm rd 0x53))
  | .fcvtSL rd rs1 rm => some (.full (encR 0x68 2 rs1 rm rd 0x53))
  | .fcvtLuS rd rs1 rm => some (.full (encR 0x60 3 rs1 rm rd 0x53))
  | .fcvtSLu rd rs1 rm => some (.full (encR 0x68 3 rs1 rm rd 0x53))
  | .fmvXW rd rs1 => some (.full (encR 0x70 0 rs1 0 rd 0x53))
  | .fmvWX rd rs1 => some (.full (encR 0x78 0 rs1 0 rd 0x53))
  | .fld rd rs1 imm => some (.full (encI imm rs1 3 rd 0x07))
  | .fsd rs2 rs1 imm => some (.full (encS imm rs2 rs1 3 0x27))
  | .fmaddD rd rs1 rs2 rs3 rm => some (.full (encR4 rs3 1 rs2 rs1 rm rd 0x43))
  | .fmsubD rd rs1 rs2 rs3 rm => some (.full (encR4 rs3 1 rs2 rs1 rm rd 0x47))
  | .fnmsubD rd rs1 rs2 rs3 rm => some (.full (encR4 rs3 1 rs2 rs1 rm rd 0x4b))
  | .fnmaddD rd rs1 rs2 rs3 rm => some (.full (encR4 rs3 1 rs2 rs1 rm rd 0x4f))
  | .faddD rd rs1 rs2 rm => some (.full (encR 0x01 rs2 rs1 rm rd 0x53))
  | .fsubD rd rs1 rs2 rm => some (.full (encR 0x05 rs2 rs1 rm rd 0x53))
  | .fmulD rd rs1 rs2 rm => some (.full (encR 0x09 rs2 rs1 rm rd 0x53))
  | .fdivD rd rs1 rs2 rm => some (.full (encR 0x0d rs2 rs1 rm rd 0x53))
  | .fsqrtD rd rs1 rm => some (.full (encR 0x2d 0 rs1 rm rd 0x53))
  | .fsgnjD rd rs1 rs2 => some (.full (encR 0x11 rs2 rs1 0 rd 0x53))
  | .fsgnjnD rd rs1 rs2 => some (.full (encR 0x11 rs2 rs1 1 rd 0x53))
  | .fsgnjxD rd rs1 rs2 => some (.full (encR 0x11 rs2 rs1 2 rd 0x53))
  | .fminD rd rs1 rs2 => some (.full (encR 0x15 rs2 rs1 0 rd 0x53))
  | .fmaxD rd rs1 rs2 => some (.full (encR 0x15 rs2 rs1 1 rd 0x53))
  | .feqD rd rs1 rs2 => some (.full (encR 0x51 rs2 rs1 2 rd 0x53))
  | .fltD rd rs1 rs2 => some (.full (encR 0x51 rs2 rs1 1 rd 0x53))
  | .fleD rd rs1 rs2 => some (.full (encR 0x51 rs2 rs1 0 rd 0x53))
  | .fclassD rd rs1 => some (.full (encR 0x71 0 rs1 1 rd 0x53))
  | .fcvtWD rd rs1 rm => some (.full (encR 0x61 0 rs1 rm rd 0x53))
  | .fcvtDW rd rs1 rm => some (.full (encR 0x69 0 rs1 rm rd 0x53))
  | .fcvtWuD rd rs1 rm => some (.full (encR 0x61 1 rs1 rm rd 0x53))
  | .fcvtDWu rd rs1 rm => some (.full (encR 0x69 1 rs1 rm rd 0x53))
  | .fcvtLD rd rs1 rm => some (.full (encR 0x61 2 rs1 rm rd 0x53))
  | .fcvtDL rd rs1 rm => some (.full (encR 0x69 2 rs1 rm rd 0x53))
  | .fcvtLuD rd rs1 rm => some (.full (encR 0x61 3 rs1 rm rd 0x53))
  | .fcvtDLu rd rs1 rm => some (.full (encR 0x69 3 rs1 rm rd 0x53))
  | .fmvXD rd rs1 => some (.full (encR 0x71 0 rs1 0 rd 0x53))
  | .fmvDX rd rs1 => some (.full (encR 0x79 0 rs1 0 rd 0x53))
  | .flh rd rs1 imm => some (.full (encI imm rs1 1 rd 0x07))
  | .fsh rs2 rs1 imm => some (.full (encS imm rs2 rs1 1 0x27))
  | .fmaddH rd rs1 rs2 rs3 rm => some (.full (encR4 rs3 2 rs2 rs1 rm rd 0x43))
  | .fmsubH rd rs1 rs2 rs3 rm => some (.full (encR4 rs3 2 rs2 rs1 rm rd 0x47))
  | .fnmsubH rd rs1 rs2 rs3 rm => some (.full (encR4 rs3 2 rs2 rs1 rm rd 0x4b))
  | .fnmaddH rd rs1 rs2 rs3 rm => some (.full (encR4 rs3 2 rs2 rs1 rm rd 0x4f))
  | .faddH rd rs1 rs2 rm => some (.full (encR 0x02 rs2 rs1 rm rd 0x53))
  | .fsubH rd rs1 rs2 rm => some (.full (encR 0x06 rs2 rs1 rm rd 0x53))
  | .fmulH rd rs1 rs2 rm => some (.full (encR 0x0a rs2 rs1 rm rd 0x53))
  | .fdivH rd rs1 rs2 rm => some (.full (encR 0x0e rs2 rs1 rm rd 0x53))
  | .fsqrtH rd rs1 rm => some (.full (encR 0x2e 0 rs1 rm rd 0x53))
  | .fsgnjH rd rs1 rs2 => some (.full (encR 0x12 rs2 rs1 0 rd 0x53))
  | .fsgnjnH rd rs1 rs2 => some (.full (encR 0x12 rs2 rs1 1 rd 0x53))
  | .fsgnjxH rd rs1 rs2 => some (.full (encR 0x12 rs2 rs1 2 rd 0x53))
  | .fminH rd rs1 rs2 => some (.full (encR 0x16 rs2 rs1 0 rd 0x53))
  | .fmaxH rd rs1 rs2 => some (.full (encR 0x16 rs2 rs1 1 rd 0x53))
  | .feqH rd rs1 rs2 => some (.full (encR 0x52 rs2 rs1 2 rd 0x53))
  | .fltH rd rs1 rs2 => some (.full (encR 0x52 rs2 rs1 1 rd 0x53))
  | .fleH rd rs1 rs2 => some (.full (encR 0x52 rs2 rs1 0 rd 0x53))
  | .fclassH rd rs1 => some (.full (encR 0x72 0 rs1 1 rd 0x53))
  | .fcvtWH rd rs1 rm => some (.full (encR 0x62 0 rs1 rm rd 0x53))
  | .fcvtHW rd rs1 rm => some (.full (encR 0x6a 0 rs1 rm rd 0x53))
  | .fcvtWuH rd rs1 rm => some (.full (encR 0x62 1 rs1 rm rd 0x53))
  | .fcvtHWu rd rs1 rm => some (.full (encR 0x6a 1 rs1 rm rd 0x53))
  | .fcvtLH rd rs1 rm => some (.full (encR 0x62 2 rs1 rm rd 0x53))
  | .fcvtHL rd rs1 rm => some (.full (encR 0x6a 2 rs1 rm rd 0x53))
  | .fcvtLuH rd rs1 rm => some (.full (encR 0x62 3 rs1 rm rd 0x53))
  | .fcvtHLu rd rs1 rm => some (.full (encR 0x6a 3 rs1 rm rd 0x53))
  | .fmvXH rd rs1 => some (.full (encR 0x72 0 rs1 0 rd 0x53))
  | .fmvHX rd rs1 => some (.full (encR 0x7a 0 rs1 0 rd 0x53))
  | .fcvtSBf16 _ _ => none
  | .fcvtBf16S _ _ => none
  | .add16 rd rs1 rs2 => some (.full (encR 0x20 rs2 rs1 0 rd 0x77))
  | .radd16 rd rs1 rs2 => some (.full (encR 0x00 rs2 rs1 0 rd 0x77))
  | .uradd16 rd rs1 rs2 => some (.full (encR 0x10 rs2 rs1 0 rd 0x77))
  | .kadd16 rd rs1 rs2 => some (.full (encR 0x08 rs2 rs1 0 rd 0x77))
  | .ukadd16 rd rs1 rs2 => some (.full (encR 0x18 rs2 rs1 0 rd 0x77))
  | .sub16 rd rs1 rs2 => some (.full (encR 0x21 rs2 rs1 0 rd 0x77))
  | .rsub16 rd rs1 rs2 => some (.full (encR 0x01 rs2 rs1 0 rd 0x77))
  | .ursub16 rd rs1 rs2 => some (.full (encR 0x11 rs2 rs1 0 rd 0x77))
  | .ksub16 rd rs1 rs2 => some (.full (encR 0x09 rs2 rs1 0 rd 0x77))
  | .uksub16 rd rs1 rs2 => some (.full (encR 0x19 rs2 rs1 0 rd 0x77))
  | .add8 rd rs1 rs2 => some (.full (encR 0x24 rs2 rs1 0 rd 0x77))
  | .radd8 rd rs1 rs2 => some (.full (encR 0x04 rs2 rs1 0 rd 0x77))
  | .uradd8 rd rs1 rs2 => some (.full (encR 0x14 rs2 rs1 0 rd 0x77))
  | .kadd8 rd rs1 rs2 => some (.full (encR 0x0c rs2 rs1 0 rd 0x77))
  | .ukadd8 rd rs1 rs2 => some (.full (encR 0x1c rs2 rs1 0 rd 0x77))
  | .sub8 rd rs1 rs2 => some (.full (encR 0x25 rs2 rs1 0 rd 0x77))
  | .rsub8 rd rs1 rs2 => some (.full (encR 0x05 rs2 rs1 0 rd 0x77))
  | .ursub8 rd rs1 rs2 => some (.full (encR 0x15 rs2 rs1 0 rd 0x77))
  | .ksub8 rd rs1 rs2 => some (.full (encR 0x0d rs2 rs1 0 rd 0x77))
  | .uksub8 rd rs1 rs2 => some (.full (encR 0x1d rs2 rs1 0 rd 0x77))
  | .cras16 rd rs1 rs2 => some (.full (encR 0x22 rs2 rs1 0 rd 0x77))
  | .rcras16 rd rs1 rs2 => some (.full (encR 0x02 rs2 rs1 0 rd 0x77))
  | .urcras16 rd rs1 rs2 => some (.full (encR 0x12 rs2 rs1 0 rd 0x77))
  | .kcras16 rd rs1 rs2 => some (.full (encR 0x0a rs2 rs1 0 rd 0x77))
  | .ukcras16 rd rs1 rs2 => some (.full (encR 0x1a rs2 rs1 0 rd 0x77))
  | .crsa16 rd rs1 rs2 => some (.full (encR 0x23 rs2 rs1 0 rd 0x77))
  | .rcrsa16 rd rs1 rs2 => some (.full (encR 0x03 rs2 rs1 0 rd 0x77))
  | .urcrsa16 rd rs1 rs2 => some (.full (encR 0x13 rs2 rs1 0 rd 0x77))
  | .kcrsa16 rd rs1 rs2 => some (.full (encR 0x0b rs2 rs1 0 rd 0x77))
  | .ukcrsa16 rd rs1 rs2 => some (.full (encR 0x1b rs2 rs1 0 rd 0x77))
  | .sra16 rd rs1 rs2 => some (.full (encR 0x28 rs2 rs1 0 rd 0x77))
  | .sra16U rd rs1 rs2 => some (.full (encR 0x30 rs2 rs1 0 rd 0x77))
  | .srl16 rd rs1 rs2 => some (.full (encR 0x29 rs2 rs1 0 rd 0x77))
  | .srl16U rd rs1 rs2 => some (.full (encR 0x31 rs2 rs1 0 rd 0x77))
  | .sll16 rd rs1 rs2 => some (.full (encR 0x2a rs2 rs1 0 rd 0x77))
  | .ksll16 rd rs1 rs2 => some (.full (encR 0x32 rs2 rs1 0 rd 0x77))
  | .srai16 rd rs1 imm4u => some (.full (encImm4 0x70 imm4u rs1 0 rd 0x77))
  | .srai16U rd rs1 imm4u => some (.full (encImm4 0x71 imm4u rs1 0 rd 0x77))
  | .srli16 rd rs1 imm4u => some (.full (encImm4 0x72 imm4u rs1 0 rd 0x77))
  | .srli16U rd rs1 imm4u => some (.full (encImm4 0x73 imm4u rs1 0 rd 0x77))
  | .slli16 rd rs1 imm4u => some (.full (encImm4 0x74 imm4u rs1 0 rd 0x77))
  | .kslli16 rd rs1 imm4u => some (.full (encImm4 0x75 imm4u rs1 0 rd 0x77))
  | .kslra16 rd rs1 rs2 => some (.full (encR 0x2b rs2 rs1 0 rd 0x77))
  | .kslra16U rd rs1 rs2 => some (.full (encR 0x33 rs2 rs1 0 rd 0x77))
  | .cmpeq16 rd rs1 rs2 => some (.full (encR 0x26 rs2 rs1 0 rd 0x77))
  | .scmplt16 rd rs1 rs2 => some (.full (encR 0x06 rs2 rs1 0 rd 0x77))
  | .scmple16 rd rs1 rs2 => some (.full (encR 0x0e rs2 rs1 0 rd 0x77))
  | .ucmplt16 rd rs1 rs2 => some (.full (encR 0x16 rs2 rs1 0 rd 0x77))
  | .ucmple16 rd rs1 rs2 => some (.full (encR 0x1e rs2 rs1 0 rd 0x77))
  | .cmpeq8 rd rs1 rs2 => some (.full (encR 0x27 rs2 rs1 0 rd 0x77))
  | .scmplt8 rd rs1 rs2 => some (.full (encR 0x07 rs2 rs1 0 rd 0x77))
  | .scmple8 rd rs1 rs2 => some (.full (encR 0x0f rs2 rs1 0 rd 0x77))
  | .ucmplt8 rd rs1 rs2 => some (.full (encR 0x17 rs2 rs1 0 rd 0x77))
  | .ucmple8 rd rs1 rs2 => some (.full (encR 0x1f rs2 rs1 0 rd 0x77))
  | .khm16 rd rs1 rs2 => some (.full (encR 0x43 rs2 rs1 0 rd 0x77))
  | .khmx16 rd rs1 rs2 => some (.full (encR 0x4b rs2 rs1 0 rd 0x77))
  | .khm8 rd rs1 rs2 => some (.full (encR 0x47 rs2 rs1 0 rd 0x77))
  | .khmx8 rd rs1 rs2 => some (.full (encR 0x4f rs2 rs1 0 rd 0x77))
  | .smin16 rd rs1 rs2 => some (.full (encR 0x40 rs2 rs1 0 rd 0x77))
  | .umin16 rd rs1 rs2 => some (.full (encR 0x48 rs2 rs1 0 rd 0x77))
  | .smax16 rd rs1 rs2 => some (.full (encR 0x41 rs2 rs1 0 rd 0x77))
  | .umax16 rd rs1 rs2 => some (.full (encR 0x49 rs2 rs1 0 rd 0x77))
  | .smin8 rd rs1 rs2 => some (.full (encR 0x44 rs2 rs1 0 rd 0x77))
  | .umin8 rd rs1 rs2 => some (.full (encR 0x4c rs2 rs1 0 rd 0x77))
  | .smax8 rd rs1 rs2 => some (.full (encR 0x45 rs2 rs1 0 rd 0x77))
  | .umax8 rd rs1 rs2 => some (.full (encR 0x4d rs2 rs1 0 rd 0x77))
  | .sclip16 rd rs1 imm4u => some (.full (encImm4 0x84 imm4u rs1 0 rd 0x77))
  | .uclip16 rd rs1 imm4u => some (.full (encImm4 0x85 imm4u rs1 0 rd 0x77))
  | .kabs16 rd rs1 => some (.full (encR 0x56 17 rs1 0 rd 0x77))
  | .kabs8 rd rs1 => some (.full (encR 0x56 16 rs1 0 rd 0x77))
  | .execIt _ => none
  | .lmw _ _ _ _ _ => none
  | .smw _ _ _ _ _ => none

end

end Sys2Proof
end

