-- ==== Sys2Proof/Machine/State.lean ====
section
/-! DEFINITION. The state of the machine as plain data, the reasons a step can stop, and the state after reset. -/

namespace Sys2Proof.Machine

/-- The reasons of a halt (spec/60_exceptions.md R382). No instruction raises `trap` (R385). -/
inductive HaltReason where
  | illegalInstruction
  | breakpoint
  | trap
  deriving DecidableEq, Repr

/-- A hart's status (spec/10_state.md R24). A hart that is not running has no step. -/
inductive Status where
  | running
  | halted (reason : HaltReason) (address : Word)
  | stuck
  deriving DecidableEq, Repr

/-- The intent of a memory request (spec/20_memory.md R28): instruction-fetch, data-read, data-write. -/
inductive Intent where
  | fetch
  | read
  | write
  deriving DecidableEq, Repr

/-- Requests the launch memory refuses: those of this size and intent at an address from `first` to `last`.
A list of these can refuse any set of requests, since there are finitely many (log 3). -/
structure AccessRefusal where
  first : Nat
  last : Nat
  size : Nat
  intent : Intent
  deriving DecidableEq, Repr

/-- EXECIT_ADDR (spec/48_andes_vendor.md R378, R379): the spec's default `uitb + 4 * index`, or another function supplied
as `Config.execItAddr` (log 18). -/
inductive ExecItAddr where
  | standard
  | supplied
  deriving DecidableEq, Repr

/-- A supplied EXECIT_LINK (spec/48_andes_vendor.md R379): an offset from the pc of the exec.it, or any function, which is
`Config.execItLink` (log 18). -/
inductive ExecItLink where
  | offset (bytes : Word)
  | supplied
  deriving DecidableEq, Repr

/-- The launch parameters (spec/00_scope.md R5) that are data. No step changes them (log 1). -/
structure Params where
  /-- XLEN -/
  xlen : Xlen
  /-- REDUCED_ABI -/
  reducedAbi : Bool
  /-- LaunchMem, by what it refuses -/
  refusals : List AccessRefusal
  /-- EXECIT_ENC, LSM_ENC and BF16_ENC, by the words they give a meaning; empty while they are OPEN -/
  openRows : List OpenRow
  /-- EXECIT_ADDR -/
  execItAddr : ExecItAddr
  /-- EXECIT_LINK: the link value of an inner jal or jalr; `none` while it is OPEN -/
  execItLink : Option ExecItLink
  /-- LSM_TABLE(REDUCED_ABI): the visitation table; `none` while it is OPEN -/
  lsmTable : Option (Vector Reg 32)
  deriving DecidableEq, Repr

/-- What each hart holds (spec/10_state.md R9). Values of XLEN bits are the low XLEN bits of a word (log 2). -/
structure Hart where
  /-- the hart's number (spec/60_exceptions.md R395) -/
  id : Nat
  /-- the address of the instruction being executed (R14) -/
  pc : Word
  /-- x0..x31; x0 reads as zero through `State.readX` (R11, R12) -/
  x : Vector Word 32
  /-- f0..f31 (R15) -/
  f : Vector (BitVec 128) 32
  /-- NV DZ OF UF NX in bits 4..0 (R17) -/
  fflags : BitVec 5
  /-- the rounding mode (R17) -/
  frm : BitVec 3
  /-- bits XLEN-1:8 of fcsr read as a draw: the last write to fcsr had them nonzero (R18) -/
  fcsrOpen : Bool
  /-- counters: writes overwrite them, reads are draws (R17, R18, R19; log 23) -/
  cycle : Word
  time : Word
  instret : Word
  /-- the counters' high halves, RV32 only (R20) -/
  cycleh : BitVec 32
  timeh : BitVec 32
  instreth : BitVec 32
  /-- the table base of exec.it (R17) -/
  uitb : Word
  /-- OV in bit 0 (R17, R21) -/
  ucode : Word
  /-- the machine identification registers: plain storage (R17) -/
  mvendorid : Word
  marchid : Word
  mimpid : Word
  mhartid : Word
  status : Status
  /-- the table-execute flag: true only while the inner instruction of an exec.it runs (spec/48_andes_vendor.md R376; log 16) -/
  te : Bool
  deriving DecidableEq, Repr

/-- Memory: the bytes that differ from what an unlisted address reads as, by address (spec/20_memory.md R27; log 7). -/
abbrev Memory := List Host.Cell

/-- Why a step has no next state although nothing is refused. Raised by `step` alone, never by an instruction; both safe:
the machine has no step there (spec/60_exceptions.md R400). -/
inductive Fault where
  /-- `step`: every hart is halted or stuck. Safe. -/
  | noRunningHart
  /-- `step`: the host has answered an ecall with Exit. Safe. -/
  | runEnded
  deriving DecidableEq, Repr

/-- Why the spec gives the instruction no meaning: the refused mark's content (spec/00_scope.md R8 d). All safe: nothing is
claimed of the hardware. -/
inductive Refusal where
  /-- an arm of `exec` whose instruction has no meaning in the model. Safe. -/
  | notModelled (mnemonic : String)
  /-- floating-point meanings: a reserved rounding mode (spec/45_float.md R205). Safe. -/
  | reservedRoundingMode
  /-- the CSR meanings: a number outside the set (spec/10_state.md R17). Safe. -/
  | unknownCsr
  /-- every meaning that names a general register: x16..x31 under REDUCED_ABI (spec/10_state.md R13). Safe. -/
  | reducedAbiRegister
  /-- decode: an unmatched 16-bit word (spec/30_encoding.md R47). Safe. -/
  | unmatchedHalf
  /-- decode: an unmatched word of the packed-SIMD opcode (spec/30_encoding.md R47). Safe. -/
  | packedSpace
  /-- decode: an unmatched word of custom-0..3 (spec/30_encoding.md R47). Safe. -/
  | customSpace
  /-- `step`: an odd pc, which only a launch can give (spec/10_state.md R14). Safe. -/
  | oddPc
  /-- exec.it: the table entry is not a 32-bit instruction (spec/48_andes_vendor.md R379). Safe. -/
  | tableEntry
  /-- jal and jalr under table-execute with rd not x0 while EXECIT_LINK is OPEN (spec/48_andes_vendor.md R379). Safe. -/
  | execItLinkOpen
  /-- lmw and smw while LSM_TABLE is OPEN (spec/48_andes_vendor.md R380, R381). Safe. -/
  | lsmOpen
  deriving DecidableEq, Repr

/-- The whole machine: the hart that steps, the other harts, and what they share (spec/10_state.md R9, R10). -/
structure State where
  /-- launch parameters (spec/00_scope.md R5) -/
  params : Params
  /-- the hart that steps -/
  hart : Hart
  /-- the other harts (spec/60_exceptions.md R395; log 13) -/
  parked : List Hart
  /-- the scheduler's coming choices among the running harts (spec/20_memory.md R35; log 13) -/
  schedule : List Nat
  /-- the shared memory (R10) -/
  mem : Memory
  /-- Resv, the reserved addresses, strictly rising (R23) -/
  resv : List Nat
  /-- the refused mark: clear, or the reason; a refused step sets it and nothing clears it (spec/00_scope.md R8; log 14) -/
  refusedMark : Option Refusal
  /-- the host has ended the run (spec/60_exceptions.md R400) -/
  exited : Bool
  /-- how many draws and host answers have been taken: the index of the next (spec/00_scope.md R8; log 8) -/
  draws : Nat
  deriving DecidableEq, Repr

/-- The outcome of a step or of an instruction. -/
abbrev Result := Host.Outcome State Fault Refusal

/-- The launch parameters the model starts from: RV64, every request admitted, the OPEN parameters not supplied (logs 1, 3). -/
def Params.reset : Params where
  xlen := .rv64
  reducedAbi := false
  refusals := []
  openRows := []
  execItAddr := .standard
  execItLink := none
  lsmTable := none

/-- Hart 0 at launch (spec/70_reset_and_hazards.md R401). The registers are launch arguments: their values here are the
model's (logs 4, 5, 6). -/
def Hart.reset : Hart where
  id := 0
  pc := 0x100
  x := Vector.replicate 32 0
  f := Vector.replicate 32 0
  fflags := 0
  frm := 0
  fcsrOpen := false
  cycle := 0
  time := 0
  instret := 0
  cycleh := 0
  timeh := 0
  instreth := 0
  uitb := 0
  ucode := 0
  mvendorid := 0
  marchid := 0
  mimpid := 0
  mhartid := 0
  status := .running
  te := false

/-- The machine right after launch (spec/10_state.md R26, spec/70_reset_and_hazards.md R401): one running hart, memory with
nothing listed, no reservation, the refused mark clear. -/
def State.reset : State where
  params := .reset
  hart := .reset
  parked := []
  schedule := []
  mem := []
  resv := []
  refusedMark := none
  exited := false
  draws := 0

end Sys2Proof.Machine
end

