-- ==== Sys2Proof/Machine/Ops.lean ====
section
/-! DEFINITION. The named operations over memory, registers, the reservation set, draws and the hart's status: every meaning
goes through them. -/

namespace Sys2Proof.Machine

/-! ## Memory (spec/20_memory.md) -/

/-- What an address that is not listed reads as: the launch contents the model takes where none are given (log 7). -/
def unlistedByte : Byte := 0

/-- Read one byte. -/
def Memory.read (m : Memory) (a : Nat) : Byte :=
  match m with
  | [] => unlistedByte
  | c :: cs => if c.1 = a then c.2 else Memory.read cs a

/-- Insert a cell in address order. -/
def Memory.insert (m : Memory) (a : Nat) (b : Byte) : Memory :=
  match m with
  | [] => [(a, b)]
  | c :: cs => if a < c.1 then (a, b) :: c :: cs else c :: Memory.insert cs a b

/-- Write one byte: any older entry of the address goes, and the new one is listed unless it reads as an unlisted byte. -/
def Memory.write (m : Memory) (a : Nat) (b : Byte) : Memory :=
  let rest := m.filter fun c => c.1 != a
  if b = unlistedByte then rest else Memory.insert rest a b

/-- The canonical form: addresses strictly rising, and no entry that reads as an unlisted byte. -/
def Memory.wf : Memory → Bool
  | [] => true
  | [c] => c.2 != unlistedByte
  | c :: c' :: cs => c.2 != unlistedByte && decide (c.1 < c'.1) && Memory.wf (c' :: cs)

/-- MemRead(a, k): k bytes from a, little-endian, the addresses wrapping modulo 2^XLEN (R27, R31). -/
def Memory.load {n : Nat} (m : Memory) (a : BitVec n) : (k : Nat) → BitVec (8 * k)
  | 0 => 0#0
  | k + 1 => m.load (a + 1) k ++ m.read a.toNat

/-- MemWrite(a, k, v): the k bytes of v at a, little-endian, the addresses wrapping modulo 2^XLEN (R27, R31). -/
def Memory.store {n : Nat} (m : Memory) (a : BitVec n) : (k : Nat) → BitVec (8 * k) → Memory
  | 0, _ => m
  | k + 1, v => (m.write a.toNat (v.extractLsb' 0 8)).store (a + 1) k (v.extractLsb' 8 (8 * k))

/-- LaunchMem admits the request (R28). -/
def Params.admits (p : Params) (address size : Nat) (intent : Intent) : Bool :=
  p.refusals.all fun r => !(decide (r.first ≤ address) && decide (address ≤ r.last) && r.size == size && r.intent == intent)

/-! ## Registers (spec/10_state.md) -/

/-- XLEN in bits. -/
def State.bits (s : State) : Nat := s.params.xlen.bits

/-- Replace the fields of the hart that steps. -/
def State.setHart (s : State) (h : Hart) : State := { s with hart := h }

/-- x[r]: the low n bits of a general register, n being XLEN where a rule reads the whole register; x0 reads 0 (R12). -/
def State.readX (s : State) (n : Nat) (r : Reg) : BitVec n :=
  if r = 0 then 0 else (s.hart.x[r.toNat]'r.isLt).setWidth n

/-- x[r] <- v: the store helper; a write to x0 is discarded (R12). -/
def State.writeX {n : Nat} (s : State) (r : Reg) (v : BitVec n) : State :=
  if r = 0 then s else s.setHart { s.hart with x := s.hart.x.set r.toNat (v.setWidth 64) r.isLt }

/-- The pc, the address of the instruction being executed (R14). -/
def State.pcVal (s : State) (n : Nat) : BitVec n := s.hart.pc.setWidth n

/-- Commit a next pc. -/
def State.setPc {n : Nat} (s : State) (t : BitVec n) : State :=
  s.setHart { s.hart with pc := t.setWidth 64 }

/-- npc: pc + L, less 2 under table-execute, modulo 2^XLEN (spec/40_helpers.md R55). -/
def State.npc (s : State) (n : Nat) (length : BitVec n) : BitVec n :=
  s.pcVal n + length - (if s.hart.te then 2 else 0)

/-- f[r] in the view of a format: the low bits of the register (R16). -/
def State.readF (s : State) (fmt : Fmt) (r : Reg) : BitVec fmt.bits :=
  (s.hart.f[r.toNat]'r.isLt).setWidth fmt.bits

/-- The free value the next draw takes (spec/00_scope.md R8; log 8). -/
def State.drawn (s : State) : Word := Config.draw s.draws

/-- Count one draw or host answer as taken. -/
def State.takeDraw (s : State) : State := { s with draws := s.draws + 1 }

/-- Set bits 63:0 of an f register; bits 127:64 are written by no instruction (R16; log 11). -/
def State.setFLow (s : State) (r : Reg) (v : Word) : State :=
  s.setHart { s.hart with f := s.hart.f.set r.toNat ((s.hart.f[r.toNat]'r.isLt).extractLsb' 64 64 ++ v) r.isLt }

/-- f[r] in the view of a format <- v: a double sets bits 63:0, a single or a half sets its own bits and makes the
others of 63:0 a draw (R16). -/
def State.writeF (s : State) (fmt : Fmt) (r : Reg) (v : BitVec fmt.bits) : State :=
  match fmt with
  | .d => s.setFLow r (v.setWidth 64)
  | _ => (s.setFLow r (((s.drawn >>> fmt.bits) <<< fmt.bits) ||| v.setWidth 64)).takeDraw

/-! ## The halt, and the other ways a hart stops (spec/60_exceptions.md) -/

/-- Take an exception: `raise R(pc)`. The hart's status records the reason and the pc of the instruction; nothing else is
saved, no mode changes, control goes nowhere, the pc is not committed and earlier effects stay (R382, R384, R386, R389).
There is no return from one (R390). -/
def State.halt (s : State) (reason : HaltReason) : State :=
  s.setHart { s.hart with status := .halted reason s.hart.pc }

/-- The refused mark records the reason; nothing else changes (spec/00_scope.md R7, R8 d). No operation clears it. -/
def State.refuse (s : State) (reason : Refusal) : State := { s with refusedMark := some reason }

/-- The hart is stuck at a refused memory request; earlier effects stay (spec/20_memory.md R28). -/
def State.stuck (s : State) : State :=
  s.setHart { s.hart with status := .stuck }

/-- The numbers of the halt reasons (R383). -/
def HaltReason.code : HaltReason → Nat
  | .illegalInstruction => 2
  | .breakpoint => 3
  | .trap => 0xFFFF

/-! ## The end of an instruction (spec/40_helpers.md R54, R56, R57) -/

/-- The pc-zero check, then the commit (R56). -/
def State.commit {n : Nat} (s : State) (t : BitVec n) : State :=
  if t = 0 then s.halt .illegalInstruction else s.setPc t

/-- x2 fails the SP16 check: not a multiple of 16, outside REDUCED_ABI (R57). -/
def State.spMisaligned (s : State) : Bool :=
  !s.params.reducedAbi && s.readX 4 Reg.sp != 0

/-- End an instruction whose next pc is t: the SP16 check if an I or C instruction wrote x2, the pc-zero check, the commit
(R54 steps 4 and 5). -/
def State.retire {n : Nat} (s : State) (wroteSp : Bool) (t : BitVec n) : State :=
  if wroteSp && s.spMisaligned then s.halt .illegalInstruction else s.commit t

/-! ## Memory requests of an instruction (spec/20_memory.md R28) -/

/-- Read k bytes at a and go on with the value, or be stuck. -/
def State.loading {n : Nat} (s : State) (k : Nat) (a : BitVec n) (go : BitVec (8 * k) → State) : State :=
  if s.params.admits a.toNat k .read then go (s.mem.load a k) else s.stuck

/-- Write k bytes at a and go on, or be stuck. -/
def State.storing {n : Nat} (s : State) (k : Nat) (a : BitVec n) (v : BitVec (8 * k)) (go : State → State) : State :=
  if s.params.admits a.toNat k .write then go { s with mem := s.mem.store a k v } else s.stuck

/-! ## The reservation set (spec/44_atomic.md R178, R179, R180) -/

/-- Insert an address in order, once. -/
def resvInsert (a : Nat) : List Nat → List Nat
  | [] => [a]
  | b :: bs => if a < b then a :: b :: bs else if a = b then b :: bs else b :: resvInsert a bs

/-- Resv <- Resv ∪ {a} (R178). -/
def State.reserve (s : State) (a : Nat) : State := { s with resv := resvInsert a s.resv }

/-- Resv <- Resv \ {a} (R179). -/
def State.release (s : State) (a : Nat) : State := { s with resv := s.resv.filter fun b => b != a }

/-- a ∈ Resv. -/
def State.reserved (s : State) (a : Nat) : Bool := s.resv.contains a

/-- The canonical form of the reservation set: strictly rising. -/
def resvWf : List Nat → Bool
  | [] => true
  | [_] => true
  | a :: b :: bs => decide (a < b) && resvWf (b :: bs)

/-! ## Guards -/

/-- A row that exists on one XLEN only, executed under the other: IllegalInstruction (spec/60_exceptions.md R385; log 21). -/
def onlyOn (xlen : Xlen) (s : State) (go : Result) : Result :=
  if s.params.xlen = xlen then go else .next (s.halt .illegalInstruction)

/-- Under REDUCED_ABI an instruction that names any of x16..x31 is refused (spec/10_state.md R13; log 22). -/
def naming (rs : List Reg) (s : State) (go : Result) : Result :=
  if s.params.reducedAbi && rs.any (fun r => r.getLsbD 4) then .refused .reducedAbiRegister else go

/-! ## Harts (spec/60_exceptions.md R395, spec/20_memory.md R35) -/

/-- The hart has a step (spec/10_state.md R24). -/
def Hart.isRunning (h : Hart) : Bool := h.status == .running

/-- The running harts as choices: 0 is the hart that steps, k + 1 the parked hart k. -/
def State.candidates (s : State) : List Nat :=
  (s.hart :: s.parked).zipIdx.filterMap fun p => if p.1.isRunning then some p.2 else none

/-- Make choice k the hart that steps: the two harts change places. -/
def State.switchTo (s : State) : Nat → State
  | 0 => s
  | k + 1 =>
    match s.parked[k]? with
    | some h => { s with hart := h, parked := s.parked.set k s.hart }
    | none => s

/-- The scheduler picks a running hart: the next choice of the schedule, counted round among the running harts; with no
choice left, the first running hart, which is the hart that stepped last if it still runs (log 13). The table-execute flag is
clear at the start of a step (spec/40_helpers.md R54). -/
def State.pick (s : State) : Option State :=
  match s.candidates with
  | [] => none
  | c :: cs =>
    let k := (c :: cs)[(s.schedule.headD 0) % (cs.length + 1)]?.getD c
    let t := { s with schedule := s.schedule.tail }.switchTo k
    some (t.setHart { t.hart with te := false })

end Sys2Proof.Machine
end

