-- ==== Sys2Proof/Machine/Operands.lean ====
section
/-! DEFINITION. The operand forms: immediates, shift amounts, effective addresses, the link, lanes, and the shapes in which
an instruction ends by writing a register. -/

namespace Sys2Proof.Machine

/-! ## Immediates (spec/30_encoding.md R42, R43) -/

/-- A field scaled by 2^k and sign-extended to n bits. -/
def signedImm {w : Nat} (n k : Nat) (field : BitVec w) : BitVec n := (field ++ 0#k).signExtend n

/-- A field scaled by 2^k and zero-extended to n bits. -/
def unsignedImm {w : Nat} (n k : Nat) (field : BitVec w) : BitVec n := (field ++ 0#k).setWidth n

/-- The U-format immediate: `sext_32(imm20 << 12)` (spec/41_base_integer.md R64). -/
def upperImm (n : Nat) (imm20 : BitVec 20) : BitVec n := signedImm n 12 imm20

/-! ## Values -/

/-- A truth value as a register value. -/
def ofBool (n : Nat) (b : Bool) : BitVec n := if b then 1 else 0

/-- The amount of a register shift: 5 bits of x[r] on RV32, 6 on RV64 (spec/41_base_integer.md R96). -/
def State.shiftAmount (s : State) (r : Reg) : Nat :=
  match s.params.xlen with
  | .rv32 => (s.readX 5 r).toNat
  | .rv64 => (s.readX 6 r).toNat

/-- An immediate shift amount the XLEN has: on RV32 one with bit 5 set is IllegalInstruction (spec/41_base_integer.md R91). -/
def State.shamtLegal (s : State) (shamt : BitVec 6) : Bool :=
  s.params.xlen == .rv64 || !shamt.getLsbD 5

/-- A 32-bit result in a register of n bits: `sext_32`. -/
def wordResult (n : Nat) (v : BitVec 32) : BitVec n := v.signExtend n

/-- `t AND NOT 1` (spec/41_base_integer.md R67). -/
def clearBit0 {n : Nat} (t : BitVec n) : BitVec n := t &&& ~~~1

/-! ## Addresses -/

/-- `x[r] + sext_12(imm)`. -/
def State.addrI (s : State) (n : Nat) (rs1 : Reg) (imm : BitVec 12) : BitVec n :=
  s.readX n rs1 + signedImm n 0 imm

/-- `x[r] + zext(uimm)`, the field scaled by 2^k (spec/42_compressed.md R124, R125). -/
def State.addrC {w : Nat} (s : State) (n k : Nat) (r : Reg) (uimm : BitVec w) : BitVec n :=
  s.readX n r + unsignedImm n k uimm

/-- `pc + sext(offset)`, the field being offset / 2. -/
def State.target {w : Nat} (s : State) (n : Nat) (off : BitVec w) : BitVec n :=
  s.pcVal n + signedImm n 1 off

/-! ## Ends that write a register -/

/-- `x[rd] <- v; pc <- t`, the SP16 check applying where `checksSp`. -/
def State.intoXThen {n : Nat} (s : State) (checksSp : Bool) (rd : Reg) (v t : BitVec n) : State :=
  (s.writeX rd v).retire (checksSp && rd == Reg.sp) t

/-- `x[rd] <- v; pc <- npc` of a 32-bit instruction of the base executor, which the SP16 check covers. -/
def State.intoXI {n : Nat} (s : State) (rd : Reg) (v : BitVec n) : State :=
  s.intoXThen true rd v (s.npc n 4)

/-- `x[rd] <- v; pc <- npc` of a compressed instruction, which the SP16 check covers. -/
def State.intoXC {n : Nat} (s : State) (rd : Reg) (v : BitVec n) : State :=
  s.intoXThen true rd v (s.npc n 2)

/-- `x[rd] <- v; pc <- npc` of a 32-bit instruction of another executor: no SP16 check (spec/40_helpers.md R57). -/
def State.intoX {n : Nat} (s : State) (rd : Reg) (v : BitVec n) : State :=
  s.intoXThen false rd v (s.npc n 4)

/-- `pc <- npc` of an instruction that writes no general register, `length` being 2 or 4. -/
def State.proceed {n : Nat} (s : State) (length : BitVec n) : State := s.retire false (s.npc n length)

/-- What a supplied EXECIT_LINK sees. -/
def State.linkRequest (s : State) (rd : Reg) : LinkRequest where
  pc := s.hart.pc
  uitb := s.hart.uitb
  rd := rd
  x := s.hart.x
  memory := s.mem

/-- The value of a supplied EXECIT_LINK (spec/48_andes_vendor.md R379; log 18). -/
def State.tableLink (s : State) (n : Nat) (rd : Reg) : ExecItLink → BitVec n
  | .offset bytes => s.pcVal n + bytes.setWidth n
  | .supplied => (Config.execItLink (s.linkRequest rd)).setWidth n

/-- The link of a jump: `pc + 4` outside table-execute; under it, for rd other than x0, EXECIT_LINK, and refused while that
is OPEN (spec/48_andes_vendor.md R379). -/
def State.linking (s : State) (n : Nat) (rd : Reg) (go : BitVec n → State) : Result :=
  if s.hart.te && rd != 0 then
    match s.params.execItLink with
    | some link => .next (go (s.tableLink n rd link))
    | none => .refused .execItLinkOpen
  else .next (go (s.pcVal n + 4))

/-! ## Lanes (spec/40_helpers.md R63) -/

/-- Lane i of width w. -/
def lane {n : Nat} (w : Nat) (v : BitVec n) (i : Nat) : BitVec w := v.extractLsb' (w * i) w

/-- The value of n bits whose lanes 0 to k - 1 of width w are given. -/
def ofLanes (n w : Nat) (f : Nat → BitVec w) : (k : Nat) → BitVec n
  | 0 => 0
  | k + 1 => ofLanes n w f k ||| ((f k).setWidth n <<< (w * k))

/-- Some lane below k has the property. -/
def anyLane (p : Nat → Bool) : (k : Nat) → Bool
  | 0 => false
  | k + 1 => anyLane p k || p k

/-- The other lane of the pair i is in: 2j and 2j + 1 change places (crossed operands). -/
def crossLane (i : Nat) : Nat := if i % 2 = 0 then i + 1 else i - 1

end Sys2Proof.Machine
end

