-- ==== Sys2Proof/Machine/Flags.lean ====
section
/-! DEFINITION. The flag computations: saturation and the overflow flag OV, the half-multiply, the rounding shifts, and the
accrued floating-point flags. A result with a flag is a pair: the value and whether the operation clamped. -/

namespace Sys2Proof.Machine

/-- `SatS(v, N)` in a lane of w bits (spec/40_helpers.md R58). -/
def satS (w : Nat) (v : Int) (range : Nat) : BitVec w × Bool :=
  if v > 2 ^ range - 1 then (BitVec.ofInt w (2 ^ range - 1), true)
  else if v < -(2 ^ range) then (BitVec.ofInt w (-(2 ^ range)), true)
  else (BitVec.ofInt w v, false)

/-- `SatU(v, N)` in a lane of w bits (spec/40_helpers.md R59). -/
def satU (w : Nat) (v : Int) (range : Nat) : BitVec w × Bool :=
  if v > 2 ^ range - 1 then (BitVec.ofInt w (2 ^ range - 1), true)
  else if v < 0 then (0, true)
  else (BitVec.ofInt w v, false)

/-- `KHM(a, b, w)` (spec/40_helpers.md R61). -/
def khm {w : Nat} (a b : BitVec w) : BitVec w × Bool :=
  if a = BitVec.intMin w ∧ b = BitVec.intMin w then (BitVec.intMax w, true)
  else (BitVec.ofInt w ((a.toInt * b.toInt) >>> (w - 1)), false)

/-- `RShrS(a, s, w)` (spec/40_helpers.md R62); the added bit is that of the integer `sint(a)`. -/
def rShrS {w : Nat} (a : BitVec w) (amount : Nat) : BitVec w :=
  if amount = 0 then a else BitVec.ofInt w (a.toInt >>> amount + (a.toInt >>> (amount - 1)) % 2)

/-- `RShrU(a, s, w)` (spec/40_helpers.md R62). -/
def rShrU {w : Nat} (a : BitVec w) (amount : Nat) : BitVec w :=
  if amount = 0 then a else BitVec.ofNat w (a.toNat >>> amount + (a.getLsbD (amount - 1)).toNat)

/-- An integer in a lane, nothing clamped: `v mod 2^w` (spec/40_helpers.md R63). -/
def wrapped {w : Nat} (v : BitVec w) : BitVec w × Bool := (v, false)

/-- `OV <- 1` where some lane clamped; otherwise OV is unchanged: no helper clears it (spec/40_helpers.md R60). -/
def State.raiseOv (s : State) (clamped : Bool) : State :=
  if clamped then s.setHart { s.hart with ucode := s.hart.ucode ||| 1 } else s

/-- `fflags <- fflags OR FPU.flags(...)` (spec/10_state.md R22, spec/45_float.md R204). -/
def State.accrue (s : State) (call : FpuCall) : State :=
  s.setHart { s.hart with fflags := s.hart.fflags ||| Config.fpuFlags call }

end Sys2Proof.Machine
end

