-- ==== Sys2Proof/Machine/Atomic.lean ====
section
/-! DEFINITION. The atomic instructions (spec/44_atomic.md R178 to R203). The aq and rl bits order nothing more
(spec/20_memory.md R36), so no meaning reads them. -/

namespace Sys2Proof.Machine

/-! ## Shapes, for accesses of k bytes -/

/-- Load-reserved: `x[rd] <- sext(MemRead(a, k)); Resv <- Resv ∪ {a}` (R182). -/
def lrOp (k : Nat) (rd rs1 : Reg) (s : State) : Result :=
  naming [rd, rs1] s <| .next <|
    let a := s.readX s.bits rs1
    s.loading k a fun v => (s.reserve a.toNat).intoX rd (v.signExtend s.bits)

/-- Store-conditional: with `a ∈ Resv` memory is written, the entry removed and x[rd] is 0; else x[rd] is 1 (R183). -/
def scOp (k : Nat) (rd rs2 rs1 : Reg) (s : State) : Result :=
  naming [rd, rs2, rs1] s <| .next <|
    let a := s.readX s.bits rs1
    if s.reserved a.toNat then
      s.storing k a (s.readX (8 * k) rs2) fun t => (t.release a.toNat).intoX rd (0 : BitVec s.bits)
    else s.intoX rd (1 : BitVec s.bits)

/-- `old <- MemRead(a, k); MemWrite(a, k, f(old, x[rs2])); x[rd] <- sext(old)` (R184). -/
def amoOp (k : Nat) (rd rs2 rs1 : Reg) (s : State) (f : BitVec (8 * k) → BitVec (8 * k) → BitVec (8 * k)) : Result :=
  naming [rd, rs2, rs1] s <| .next <|
    let a := s.readX s.bits rs1
    s.loading k a fun old =>
      s.storing k a (f old (s.readX (8 * k) rs2)) fun t => t.intoX rd (old.signExtend s.bits)

/-! ## Instructions -/

/-- lr.w rd, (rs1) (R182). -/
def execLrW (rd rs1 : Reg) (_aq _rl : BitVec 1) (s : State) : Result :=
  lrOp 4 rd rs1 s

/-- sc.w rd, rs2, (rs1) (R183). -/
def execScW (rd rs2 rs1 : Reg) (_aq _rl : BitVec 1) (s : State) : Result :=
  scOp 4 rd rs2 rs1 s

/-- amoswap.w rd, rs2, (rs1) (R184). -/
def execAmoswapW (rd rs2 rs1 : Reg) (_aq _rl : BitVec 1) (s : State) : Result :=
  amoOp 4 rd rs2 rs1 s fun _ v => v

/-- amoadd.w rd, rs2, (rs1) (R185). -/
def execAmoaddW (rd rs2 rs1 : Reg) (_aq _rl : BitVec 1) (s : State) : Result :=
  amoOp 4 rd rs2 rs1 s fun old v => old + v

/-- amoxor.w rd, rs2, (rs1) (R186). -/
def execAmoxorW (rd rs2 rs1 : Reg) (_aq _rl : BitVec 1) (s : State) : Result :=
  amoOp 4 rd rs2 rs1 s fun old v => old ^^^ v

/-- amoand.w rd, rs2, (rs1) (R187). -/
def execAmoandW (rd rs2 rs1 : Reg) (_aq _rl : BitVec 1) (s : State) : Result :=
  amoOp 4 rd rs2 rs1 s fun old v => old &&& v

/-- amoor.w rd, rs2, (rs1) (R188). -/
def execAmoorW (rd rs2 rs1 : Reg) (_aq _rl : BitVec 1) (s : State) : Result :=
  amoOp 4 rd rs2 rs1 s fun old v => old ||| v

/-- amomin.w rd, rs2, (rs1) (R189). -/
def execAmominW (rd rs2 rs1 : Reg) (_aq _rl : BitVec 1) (s : State) : Result :=
  amoOp 4 rd rs2 rs1 s fun old v => if old.slt v then old else v

/-- amomax.w rd, rs2, (rs1) (R190). -/
def execAmomaxW (rd rs2 rs1 : Reg) (_aq _rl : BitVec 1) (s : State) : Result :=
  amoOp 4 rd rs2 rs1 s fun old v => if v.slt old then old else v

/-- amominu.w rd, rs2, (rs1) (R191). -/
def execAmominuW (rd rs2 rs1 : Reg) (_aq _rl : BitVec 1) (s : State) : Result :=
  amoOp 4 rd rs2 rs1 s fun old v => if old.ult v then old else v

/-- amomaxu.w rd, rs2, (rs1) (R192). -/
def execAmomaxuW (rd rs2 rs1 : Reg) (_aq _rl : BitVec 1) (s : State) : Result :=
  amoOp 4 rd rs2 rs1 s fun old v => if v.ult old then old else v

/-- lr.d rd, (rs1) (R193). -/
def execLrD (rd rs1 : Reg) (_aq _rl : BitVec 1) (s : State) : Result :=
  onlyOn .rv64 s <| lrOp 8 rd rs1 s

/-- sc.d rd, rs2, (rs1) (R194). -/
def execScD (rd rs2 rs1 : Reg) (_aq _rl : BitVec 1) (s : State) : Result :=
  onlyOn .rv64 s <| scOp 8 rd rs2 rs1 s

/-- amoswap.d rd, rs2, (rs1) (R195). -/
def execAmoswapD (rd rs2 rs1 : Reg) (_aq _rl : BitVec 1) (s : State) : Result :=
  onlyOn .rv64 s <| amoOp 8 rd rs2 rs1 s fun _ v => v

/-- amoadd.d rd, rs2, (rs1) (R196). -/
def execAmoaddD (rd rs2 rs1 : Reg) (_aq _rl : BitVec 1) (s : State) : Result :=
  onlyOn .rv64 s <| amoOp 8 rd rs2 rs1 s fun old v => old + v

/-- amoxor.d rd, rs2, (rs1) (R197). -/
def execAmoxorD (rd rs2 rs1 : Reg) (_aq _rl : BitVec 1) (s : State) : Result :=
  onlyOn .rv64 s <| amoOp 8 rd rs2 rs1 s fun old v => old ^^^ v

/-- amoand.d rd, rs2, (rs1) (R198). -/
def execAmoandD (rd rs2 rs1 : Reg) (_aq _rl : BitVec 1) (s : State) : Result :=
  onlyOn .rv64 s <| amoOp 8 rd rs2 rs1 s fun old v => old &&& v

/-- amoor.d rd, rs2, (rs1) (R199). -/
def execAmoorD (rd rs2 rs1 : Reg) (_aq _rl : BitVec 1) (s : State) : Result :=
  onlyOn .rv64 s <| amoOp 8 rd rs2 rs1 s fun old v => old ||| v

/-- amomin.d rd, rs2, (rs1) (R200). -/
def execAmominD (rd rs2 rs1 : Reg) (_aq _rl : BitVec 1) (s : State) : Result :=
  onlyOn .rv64 s <| amoOp 8 rd rs2 rs1 s fun old v => if old.slt v then old else v

/-- amomax.d rd, rs2, (rs1) (R201). -/
def execAmomaxD (rd rs2 rs1 : Reg) (_aq _rl : BitVec 1) (s : State) : Result :=
  onlyOn .rv64 s <| amoOp 8 rd rs2 rs1 s fun old v => if v.slt old then old else v

/-- amominu.d rd, rs2, (rs1) (R202). -/
def execAmominuD (rd rs2 rs1 : Reg) (_aq _rl : BitVec 1) (s : State) : Result :=
  onlyOn .rv64 s <| amoOp 8 rd rs2 rs1 s fun old v => if old.ult v then old else v

/-- amomaxu.d rd, rs2, (rs1) (R203). -/
def execAmomaxuD (rd rs2 rs1 : Reg) (_aq _rl : BitVec 1) (s : State) : Result :=
  onlyOn .rv64 s <| amoOp 8 rd rs2 rs1 s fun old v => if v.ult old then old else v

end Sys2Proof.Machine
end

