-- ==== Sys2Proof/Machine/Base.lean ====
section
/-! DEFINITION. The base integer instructions but for the CSR ones (spec/41_base_integer.md R64 to R116). -/

namespace Sys2Proof.Machine

/-! ## Shapes -/

/-- `x[rd] <- f(x[rs1], x[rs2]); pc <- npc`. -/
def regOp (rd rs1 rs2 : Reg) (s : State) (f : BitVec s.bits → BitVec s.bits → BitVec s.bits) : Result :=
  naming [rd, rs1, rs2] s <| .next <| s.intoXI rd (f (s.readX s.bits rs1) (s.readX s.bits rs2))

/-- `x[rd] <- f(x[rs1], sext_12(imm)); pc <- npc`. -/
def immOp (rd rs1 : Reg) (imm : BitVec 12) (s : State) (f : BitVec s.bits → BitVec s.bits → BitVec s.bits) : Result :=
  naming [rd, rs1] s <| .next <| s.intoXI rd (f (s.readX s.bits rs1) (signedImm s.bits 0 imm))

/-- `x[rd] <- f(x[rs1], x[rs2][s:0]); pc <- npc` (R96). -/
def shiftRegOp (rd rs1 rs2 : Reg) (s : State) (f : BitVec s.bits → Nat → BitVec s.bits) : Result :=
  naming [rd, rs1, rs2] s <| .next <| s.intoXI rd (f (s.readX s.bits rs1) (s.shiftAmount rs2))

/-- `x[rd] <- f(x[rs1], shamt); pc <- npc`, a shamt of 32 or more being IllegalInstruction on RV32 (R91). -/
def shiftImmOp (rd rs1 : Reg) (shamt : BitVec 6) (s : State) (f : BitVec s.bits → Nat → BitVec s.bits) : Result :=
  naming [rd, rs1] s <| .next <|
    if s.shamtLegal shamt then s.intoXI rd (f (s.readX s.bits rs1) shamt.toNat)
    else s.halt .illegalInstruction

/-- `x[rd] <- sext_32(f(x[rs1][31:0], x[rs2][31:0])); pc <- npc`, RV64 only (R108). -/
def wordRegOp (rd rs1 rs2 : Reg) (s : State) (f : BitVec 32 → BitVec 32 → BitVec 32) : Result :=
  onlyOn .rv64 s <| naming [rd, rs1, rs2] s <| .next <|
    s.intoXI rd (wordResult s.bits (f (s.readX 32 rs1) (s.readX 32 rs2)))

/-- `x[rd] <- sext_32(f(x[rs1][31:0])); pc <- npc`, RV64 only (R104). -/
def wordImmOp (rd rs1 : Reg) (s : State) (f : BitVec 32 → BitVec 32) : Result :=
  onlyOn .rv64 s <| naming [rd, rs1] s <| .next <| s.intoXI rd (wordResult s.bits (f (s.readX 32 rs1)))

/-- `if c(x[rs1], x[rs2]) then pc <- pc + offset else pc <- npc` (R68). -/
def branchOp (rs1 rs2 : Reg) (off : BitVec 12) (s : State) (c : BitVec s.bits → BitVec s.bits → Bool) : Result :=
  naming [rs1, rs2] s <| .next <| s.retire false <|
    if c (s.readX s.bits rs1) (s.readX s.bits rs2) then s.target s.bits off else s.npc s.bits 4

/-- `x[rd] <- ext(MemRead(x[rs1] + sext_12(imm), k)); pc <- npc` (R74). -/
def loadOp (k : Nat) (rd rs1 : Reg) (imm : BitVec 12) (s : State) (ext : BitVec (8 * k) → BitVec s.bits) : Result :=
  naming [rd, rs1] s <| .next <| s.loading k (s.addrI s.bits rs1 imm) fun v => s.intoXI rd (ext v)

/-- `MemWrite(x[rs1] + sext_12(imm), k, x[rs2] low bytes); pc <- npc` (R81). -/
def storeOp (k : Nat) (rs2 rs1 : Reg) (imm : BitVec 12) (s : State) : Result :=
  naming [rs2, rs1] s <| .next <|
    s.storing k (s.addrI s.bits rs1 imm) (s.readX (8 * k) rs2) fun t => t.proceed (4 : BitVec s.bits)

/-! ## Instructions -/

/-- lui rd, imm20 (R64). -/
def execLui (rd : Reg) (imm20 : BitVec 20) (s : State) : Result :=
  naming [rd] s <| .next <| s.intoXI rd (upperImm s.bits imm20)

/-- auipc rd, imm20 (R65). -/
def execAuipc (rd : Reg) (imm20 : BitVec 20) (s : State) : Result :=
  naming [rd] s <| .next <| s.intoXI rd (s.pcVal s.bits + upperImm s.bits imm20)

/-- jal rd, offset (R66). -/
def execJal (rd : Reg) (off : BitVec 20) (s : State) : Result :=
  naming [rd] s <| s.linking s.bits rd fun link => s.intoXThen true rd link (s.target s.bits off)

/-- jalr rd, offset(rs1) (R67). -/
def execJalr (rd rs1 : Reg) (imm : BitVec 12) (s : State) : Result :=
  naming [rd, rs1] s <| s.linking s.bits rd fun link =>
    s.intoXThen true rd link (clearBit0 (s.addrI s.bits rs1 imm))

/-- beq rs1, rs2, offset (R68). -/
def execBeq (rs1 rs2 : Reg) (off : BitVec 12) (s : State) : Result :=
  branchOp rs1 rs2 off s fun a b => a == b

/-- bne rs1, rs2, offset (R69). -/
def execBne (rs1 rs2 : Reg) (off : BitVec 12) (s : State) : Result :=
  branchOp rs1 rs2 off s fun a b => a != b

/-- blt rs1, rs2, offset (R70). -/
def execBlt (rs1 rs2 : Reg) (off : BitVec 12) (s : State) : Result :=
  branchOp rs1 rs2 off s fun a b => a.slt b

/-- bge rs1, rs2, offset (R71). -/
def execBge (rs1 rs2 : Reg) (off : BitVec 12) (s : State) : Result :=
  branchOp rs1 rs2 off s fun a b => !a.slt b

/-- bltu rs1, rs2, offset (R72). -/
def execBltu (rs1 rs2 : Reg) (off : BitVec 12) (s : State) : Result :=
  branchOp rs1 rs2 off s fun a b => a.ult b

/-- bgeu rs1, rs2, offset (R73). -/
def execBgeu (rs1 rs2 : Reg) (off : BitVec 12) (s : State) : Result :=
  branchOp rs1 rs2 off s fun a b => !a.ult b

/-- lb rd, offset(rs1) (R74). -/
def execLb (rd rs1 : Reg) (imm : BitVec 12) (s : State) : Result :=
  loadOp 1 rd rs1 imm s fun v => v.signExtend s.bits

/-- lh rd, offset(rs1) (R75). -/
def execLh (rd rs1 : Reg) (imm : BitVec 12) (s : State) : Result :=
  loadOp 2 rd rs1 imm s fun v => v.signExtend s.bits

/-- lw rd, offset(rs1) (R76). -/
def execLw (rd rs1 : Reg) (imm : BitVec 12) (s : State) : Result :=
  loadOp 4 rd rs1 imm s fun v => v.signExtend s.bits

/-- lbu rd, offset(rs1) (R77). -/
def execLbu (rd rs1 : Reg) (imm : BitVec 12) (s : State) : Result :=
  loadOp 1 rd rs1 imm s fun v => v.setWidth s.bits

/-- lhu rd, offset(rs1) (R78). -/
def execLhu (rd rs1 : Reg) (imm : BitVec 12) (s : State) : Result :=
  loadOp 2 rd rs1 imm s fun v => v.setWidth s.bits

/-- lwu rd, offset(rs1) (R79). -/
def execLwu (rd rs1 : Reg) (imm : BitVec 12) (s : State) : Result :=
  onlyOn .rv64 s <| loadOp 4 rd rs1 imm s fun v => v.setWidth s.bits

/-- ld rd, offset(rs1) (R80). -/
def execLd (rd rs1 : Reg) (imm : BitVec 12) (s : State) : Result :=
  onlyOn .rv64 s <| loadOp 8 rd rs1 imm s fun v => v.setWidth s.bits

/-- sb rs2, offset(rs1) (R81). -/
def execSb (rs2 rs1 : Reg) (imm : BitVec 12) (s : State) : Result :=
  storeOp 1 rs2 rs1 imm s

/-- sh rs2, offset(rs1) (R82). -/
def execSh (rs2 rs1 : Reg) (imm : BitVec 12) (s : State) : Result :=
  storeOp 2 rs2 rs1 imm s

/-- sw rs2, offset(rs1) (R83). -/
def execSw (rs2 rs1 : Reg) (imm : BitVec 12) (s : State) : Result :=
  storeOp 4 rs2 rs1 imm s

/-- sd rs2, offset(rs1) (R84). -/
def execSd (rs2 rs1 : Reg) (imm : BitVec 12) (s : State) : Result :=
  onlyOn .rv64 s <| storeOp 8 rs2 rs1 imm s

/-- addi rd, rs1, imm12 (R85). -/
def execAddi (rd rs1 : Reg) (imm : BitVec 12) (s : State) : Result :=
  immOp rd rs1 imm s fun a b => a + b

/-- slti rd, rs1, imm12 (R86). -/
def execSlti (rd rs1 : Reg) (imm : BitVec 12) (s : State) : Result :=
  immOp rd rs1 imm s fun a b => ofBool s.bits (a.slt b)

/-- sltiu rd, rs1, imm12 (R87). -/
def execSltiu (rd rs1 : Reg) (imm : BitVec 12) (s : State) : Result :=
  immOp rd rs1 imm s fun a b => ofBool s.bits (a.ult b)

/-- xori rd, rs1, imm12 (R88). -/
def execXori (rd rs1 : Reg) (imm : BitVec 12) (s : State) : Result :=
  immOp rd rs1 imm s fun a b => a ^^^ b

/-- ori rd, rs1, imm12 (R89). -/
def execOri (rd rs1 : Reg) (imm : BitVec 12) (s : State) : Result :=
  immOp rd rs1 imm s fun a b => a ||| b

/-- andi rd, rs1, imm12 (R90). -/
def execAndi (rd rs1 : Reg) (imm : BitVec 12) (s : State) : Result :=
  immOp rd rs1 imm s fun a b => a &&& b

/-- slli rd, rs1, shamt (R91). -/
def execSlli (rd rs1 : Reg) (shamt : BitVec 6) (s : State) : Result :=
  shiftImmOp rd rs1 shamt s fun a k => a <<< k

/-- srli rd, rs1, shamt (R92). -/
def execSrli (rd rs1 : Reg) (shamt : BitVec 6) (s : State) : Result :=
  shiftImmOp rd rs1 shamt s fun a k => a >>> k

/-- srai rd, rs1, shamt (R93). -/
def execSrai (rd rs1 : Reg) (shamt : BitVec 6) (s : State) : Result :=
  shiftImmOp rd rs1 shamt s fun a k => a.sshiftRight k

/-- add rd, rs1, rs2 (R94). -/
def execAdd (rd rs1 rs2 : Reg) (s : State) : Result :=
  regOp rd rs1 rs2 s fun a b => a + b

/-- sub rd, rs1, rs2 (R95). -/
def execSub (rd rs1 rs2 : Reg) (s : State) : Result :=
  regOp rd rs1 rs2 s fun a b => a - b

/-- sll rd, rs1, rs2 (R96). -/
def execSll (rd rs1 rs2 : Reg) (s : State) : Result :=
  shiftRegOp rd rs1 rs2 s fun a k => a <<< k

/-- slt rd, rs1, rs2 (R97). -/
def execSlt (rd rs1 rs2 : Reg) (s : State) : Result :=
  regOp rd rs1 rs2 s fun a b => ofBool s.bits (a.slt b)

/-- sltu rd, rs1, rs2 (R98). -/
def execSltu (rd rs1 rs2 : Reg) (s : State) : Result :=
  regOp rd rs1 rs2 s fun a b => ofBool s.bits (a.ult b)

/-- xor rd, rs1, rs2 (R99). -/
def execXor (rd rs1 rs2 : Reg) (s : State) : Result :=
  regOp rd rs1 rs2 s fun a b => a ^^^ b

/-- srl rd, rs1, rs2 (R100). -/
def execSrl (rd rs1 rs2 : Reg) (s : State) : Result :=
  shiftRegOp rd rs1 rs2 s fun a k => a >>> k

/-- sra rd, rs1, rs2 (R101). -/
def execSra (rd rs1 rs2 : Reg) (s : State) : Result :=
  shiftRegOp rd rs1 rs2 s fun a k => a.sshiftRight k

/-- or rd, rs1, rs2 (R102). -/
def execOr (rd rs1 rs2 : Reg) (s : State) : Result :=
  regOp rd rs1 rs2 s fun a b => a ||| b

/-- and rd, rs1, rs2 (R103). -/
def execAnd (rd rs1 rs2 : Reg) (s : State) : Result :=
  regOp rd rs1 rs2 s fun a b => a &&& b

/-- addiw rd, rs1, imm12 (R104). -/
def execAddiw (rd rs1 : Reg) (imm : BitVec 12) (s : State) : Result :=
  wordImmOp rd rs1 s fun a => a + signedImm 32 0 imm

/-- slliw rd, rs1, shamt5 (R105). -/
def execSlliw (rd rs1 : Reg) (shamt : BitVec 5) (s : State) : Result :=
  wordImmOp rd rs1 s fun a => a <<< shamt.toNat

/-- srliw rd, rs1, shamt5 (R106). -/
def execSrliw (rd rs1 : Reg) (shamt : BitVec 5) (s : State) : Result :=
  wordImmOp rd rs1 s fun a => a >>> shamt.toNat

/-- sraiw rd, rs1, shamt5 (R107). -/
def execSraiw (rd rs1 : Reg) (shamt : BitVec 5) (s : State) : Result :=
  wordImmOp rd rs1 s fun a => a.sshiftRight shamt.toNat

/-- addw rd, rs1, rs2 (R108). -/
def execAddw (rd rs1 rs2 : Reg) (s : State) : Result :=
  wordRegOp rd rs1 rs2 s fun a b => a + b

/-- subw rd, rs1, rs2 (R109). -/
def execSubw (rd rs1 rs2 : Reg) (s : State) : Result :=
  wordRegOp rd rs1 rs2 s fun a b => a - b

/-- sllw rd, rs1, rs2 (R110). -/
def execSllw (rd rs1 rs2 : Reg) (s : State) : Result :=
  wordRegOp rd rs1 rs2 s fun a b => a <<< (b.setWidth 5).toNat

/-- srlw rd, rs1, rs2 (R111). -/
def execSrlw (rd rs1 rs2 : Reg) (s : State) : Result :=
  wordRegOp rd rs1 rs2 s fun a b => a >>> (b.setWidth 5).toNat

/-- sraw rd, rs1, rs2 (R112). -/
def execSraw (rd rs1 rs2 : Reg) (s : State) : Result :=
  wordRegOp rd rs1 rs2 s fun a b => a.sshiftRight (b.setWidth 5).toNat

/-- fence pred, succ (R113): no effect, whatever the fields. -/
def execFence (_fm _pred _succ : BitVec 4) (_rs1 _rd : Reg) (s : State) : Result :=
  .next <| s.proceed (4 : BitVec s.bits)

/-- fence.i (R114): no effect, whatever the fields. -/
def execFenceI (_rd _rs1 : Reg) (_imm : BitVec 12) (s : State) : Result :=
  .next <| s.proceed (4 : BitVec s.bits)

/-- IDREG: a7, or t0 under REDUCED_ABI (R115). -/
def State.idReg (s : State) : Reg := if s.params.reducedAbi then 5 else 17

/-- What the core sends the host (spec/60_exceptions.md R398, R399). -/
def State.hostRequest (s : State) : HostRequest where
  id := (s.readX s.bits s.idReg).setWidth 64
  arg0 := (s.readX s.bits 10).setWidth 64
  arg1 := (s.readX s.bits 11).setWidth 64
  arg2 := (s.readX s.bits 12).setWidth 64
  arg3 := (s.readX s.bits 13).setWidth 64
  memory := s.mem

/-- The host's change of memory, kept to the bytes of the address space that LaunchMem admits for data-write (R399).
DESIGN CHOICE: LaunchMem admits a request by its size too (spec/20_memory.md R28) and the rule names no size for a byte: the
model asks for a write of size 1 at each byte (log 12). -/
def State.hostWrites (s : State) (writes : List (Nat × Byte)) : Memory :=
  writes.foldl (init := s.mem) fun m w =>
    if w.1 < 2 ^ s.bits && s.params.admits w.1 1 .write then m.write w.1 w.2 else m

/-- Take the host's answer: on `Result` memory and x[10] change and the pc advances; on `Exit` the run ends with the pc and
the registers as they were (R398, R400). The counter records that an answer was taken (log 12). -/
def State.takeAnswer (s : State) : HostAnswer → State
  | .result r writes =>
    let t := { s.takeDraw with mem := s.hostWrites writes }
    t.intoXI 10 (r.setWidth s.bits)
  | .exit => { s.takeDraw with exited := true }

/-- ecall (R115). -/
def execEcall (s : State) : Result :=
  .next <| s.takeAnswer (Config.hostAnswer s.draws s.hostRequest)

/-- ebreak (R116). -/
def execEbreak (s : State) : Result :=
  .next <| s.halt .breakpoint

end Sys2Proof.Machine
end

