-- ==== Sys2Proof/Machine/Float.lean ====
section
/-! DEFINITION. Floating point: the formats as exact values, what is exact and what the FPU parameter gives, and the shapes
the floating-point meanings share (spec/45_float.md R204 to R207; logs 9, 10, 11). -/

namespace Sys2Proof.Machine

/-! ## Formats -/

/-- Width of the exponent field. -/
def expBits : Fmt → Nat
  | .h => 5
  | .s => 8
  | .d => 11

/-- Width of the fraction field. -/
def fracBits : Fmt → Nat
  | .h => 10
  | .s => 23
  | .d => 52

/-- The largest exponent field, that of infinities and NaNs. -/
def maxExp (fmt : Fmt) : Nat := 2 ^ expBits fmt - 1

/-- The exponent of the last place of a subnormal: 1 - bias - fraction width. -/
def minPlace (fmt : Fmt) : Int := 2 - 2 ^ (expBits fmt - 1) - fracBits fmt

/-- The sign bit. -/
def signBit {w : Nat} (v : BitVec w) : Bool := v.msb

/-- The exponent field. -/
def expField (fmt : Fmt) (v : BitVec fmt.bits) : Nat := (v.toNat >>> fracBits fmt) % 2 ^ expBits fmt

/-- The fraction field. -/
def fracField (fmt : Fmt) (v : BitVec fmt.bits) : Nat := v.toNat % 2 ^ fracBits fmt

/-- The value without its sign: exponent and fraction as one number, which orders magnitudes. -/
def magnitude (fmt : Fmt) (v : BitVec fmt.bits) : Nat := v.toNat % 2 ^ (fmt.bits - 1)

/-- The value is a NaN. -/
def isNan (fmt : Fmt) (v : BitVec fmt.bits) : Bool := expField fmt v == maxExp fmt && fracField fmt v != 0

/-- The value is an infinity. -/
def isInf (fmt : Fmt) (v : BitVec fmt.bits) : Bool := expField fmt v == maxExp fmt && fracField fmt v == 0

/-- The value is a zero of either sign. -/
def isZero (fmt : Fmt) (v : BitVec fmt.bits) : Bool := magnitude fmt v == 0

/-- A number in the order of the real values, for values that are no NaN: both zeros give 0. -/
def orderKey (fmt : Fmt) (v : BitVec fmt.bits) : Int :=
  if signBit v then -(magnitude fmt v : Int) else magnitude fmt v

/-- `FClass(v)` (R206). -/
def fclass (fmt : Fmt) (v : BitVec fmt.bits) : BitVec 10 :=
  if isNan fmt v then (if v.getLsbD (fracBits fmt - 1) then 0x200 else 0x100)
  else if isInf fmt v then (if signBit v then 0x001 else 0x080)
  else if isZero fmt v then (if signBit v then 0x008 else 0x010)
  else if expField fmt v = 0 then (if signBit v then 0x004 else 0x020)
  else (if signBit v then 0x002 else 0x040)

/-! ## Exact values: mantissa * 2^place, with a sign -/

/-- A finite value. -/
structure Finite where
  negative : Bool
  mantissa : Nat
  place : Int
  deriving DecidableEq, Repr

/-- The finite value of a bit pattern; none for an infinity or a NaN. -/
def unpack (fmt : Fmt) (v : BitVec fmt.bits) : Option Finite :=
  if expField fmt v = maxExp fmt then none
  else if expField fmt v = 0 then some ⟨signBit v, fracField fmt v, minPlace fmt⟩
  else some ⟨signBit v, fracField fmt v + 2 ^ fracBits fmt, minPlace fmt + (expField fmt v - 1)⟩

/-- The number of the highest set bit of m below bit k + 1; 0 where there is none. -/
def topBit (m : Nat) : (k : Nat) → Nat
  | 0 => 0
  | k + 1 => if m.testBit (k + 1) then k + 1 else topBit m k

/-- The bit pattern of a finite value (a mantissa of at most 64 bits), if the format holds it exactly. -/
def pack (fmt : Fmt) (x : Finite) : Option (BitVec fmt.bits) :=
  let sign := if x.negative then 2 ^ (fmt.bits - 1) else 0
  if x.mantissa = 0 then some (BitVec.ofNat fmt.bits sign)
  else
    let place := max (x.place + topBit x.mantissa 63 - fracBits fmt) (minPlace fmt)
    let up := (x.place - place).toNat
    let down := (place - x.place).toNat
    if x.mantissa % 2 ^ down ≠ 0 then none
    else
      let m := (x.mantissa * 2 ^ up) / 2 ^ down
      -- the hidden bit of a normal value adds one to the field
      let field := (place - minPlace fmt).toNat
      if field + 1 ≥ maxExp fmt then none
      else some (BitVec.ofNat fmt.bits (sign + field * 2 ^ fracBits fmt + m))

/-- The smallest integer of a kind. -/
def kindLeast : IntKind → Int
  | .s32 => -(2 ^ 31)
  | .s64 => -(2 ^ 63)
  | .u32 | .u64 => 0

/-- The largest integer of a kind. -/
def kindGreatest : IntKind → Int
  | .s32 => 2 ^ 31 - 1
  | .u32 => 2 ^ 32 - 1
  | .s64 => 2 ^ 63 - 1
  | .u64 => 2 ^ 64 - 1

/-- The integer a word holds, read as a kind. -/
def kindRead (kind : IntKind) (v : BitVec kind.bits) : Int :=
  match kind with
  | .s32 | .s64 => v.toInt
  | .u32 | .u64 => v.toNat

/-! ## What is exact (log 10; the sign of a zero, log 27) -/

/-- A conversion that neither rounds nor meets a special case: a widening of any value but a NaN, a narrowing of a finite
value the narrower format holds (spec/45_float.md R268, R269). DESIGN CHOICE: a zero keeps its sign, which the rules do not
state (log 27). -/
def exactConvert (src dst : Fmt) (v : BitVec src.bits) : Option (BitVec dst.bits) :=
  if isInf src v then
    if src.bits < dst.bits then
      some (BitVec.ofNat dst.bits ((if signBit v then 2 ^ (dst.bits - 1) else 0) + maxExp dst * 2 ^ fracBits dst))
    else none
  else (unpack src v).bind (pack dst)

/-- A conversion to an integer that neither rounds nor leaves the range (R228). -/
def exactToInt (fmt : Fmt) (kind : IntKind) (v : BitVec fmt.bits) : Option (BitVec kind.bits) :=
  (unpack fmt v).bind fun x =>
    let up := x.place.toNat
    let down := (-x.place).toNat
    if x.mantissa % 2 ^ down ≠ 0 then none
    else
      let m : Int := ((x.mantissa * 2 ^ up) / 2 ^ down : Nat)
      let i := if x.negative then -m else m
      if kindLeast kind ≤ i ∧ i ≤ kindGreatest kind then some (BitVec.ofInt kind.bits i) else none

/-- A conversion from an integer the format holds (R229). DESIGN CHOICE: the integer 0 gives +0; the rule says only that the
conversion is exact, which -0 meets as well (log 27). -/
def exactFromInt (fmt : Fmt) (kind : IntKind) (v : BitVec kind.bits) : Option (BitVec fmt.bits) :=
  let i := kindRead kind v
  pack fmt ⟨decide (i < 0), i.natAbs, 0⟩

/-- The ordinary cases of the smaller or larger value: no NaN, and not two zeros of opposite sign (R222). -/
def exactMinMax (fmt : Fmt) (op : MinMaxOp) (a b : BitVec fmt.bits) : Option (BitVec fmt.bits) :=
  if isNan fmt a || isNan fmt b || (isZero fmt a && isZero fmt b && signBit a != signBit b) then none
  else
    match op with
    | .min => some (if orderKey fmt a ≤ orderKey fmt b then a else b)
    | .max => some (if orderKey fmt b ≤ orderKey fmt a then a else b)

/-- A comparison as real numbers, false with a NaN (R224 to R226). -/
def compare (fmt : Fmt) (op : CmpOp) (a b : BitVec fmt.bits) : Bool :=
  !isNan fmt a && !isNan fmt b &&
    match op with
    | .eq => decide (orderKey fmt a = orderKey fmt b)
    | .lt => decide (orderKey fmt a < orderKey fmt b)
    | .le => decide (orderKey fmt a ≤ orderKey fmt b)

/-- A value with its sign bit replaced. -/
def withSign {w : Nat} (v : BitVec w) (sign : Bool) : BitVec w :=
  (v &&& ~~~BitVec.intMin w) ||| (if sign then BitVec.intMin w else 0)

/-! ## Shapes -/

/-- A rounding mode of a number: 0 to 4. -/
def roundingMode (number : BitVec 3) : Option Rm :=
  match number.toNat with
  | 0 => some .rne
  | 1 => some .rtz
  | 2 => some .rdn
  | 3 => some .rup
  | 4 => some .rmm
  | _ => none

/-- `rmEff(rm)`: 7 selects frm; a reserved value REFUSES the instruction (R205). -/
def State.rmEff (s : State) (rm : BitVec 3) : Option Rm := roundingMode (if rm = 7 then s.hart.frm else rm)

/-- Go on with the rounding mode of a rm field. -/
def rounding (rm : BitVec 3) (s : State) (go : Rm → State) : Result :=
  match s.rmEff rm with
  | some mode => .next (go mode)
  | none => .refused .reservedRoundingMode

/-- A value as an argument of the FPU parameter. -/
def fpuArg {w : Nat} (v : BitVec w) : Word := v.setWidth 64

/-- The FPU parameter's value, of the result's width. -/
def fpuValue (w : Nat) (call : FpuCall) : BitVec w := (Config.fpu call).setWidth w

/-- `f[rd] <- v; pc <- npc` in the view of a format. -/
def State.intoF {n : Nat} (s : State) (fmt : Fmt) (length : BitVec n) (rd : Reg) (v : BitVec fmt.bits) : State :=
  (s.writeF fmt rd v).proceed length

/-- `f[rd] <- v; fflags <- fflags OR FPU.flags(call); pc <- npc`. -/
def State.intoFpu (s : State) (fmt : Fmt) (rd : Reg) (call : FpuCall) (v : BitVec fmt.bits) : State :=
  (s.accrue call).intoF fmt (4 : BitVec s.bits) rd v

/-- Loads (R208). -/
def floatLoad (fmt : Fmt) (rd rs1 : Reg) (imm : BitVec 12) (s : State) : Result :=
  naming [rs1] s <| .next <| s.loading (fmt.bits / 8) (s.addrI s.bits rs1 imm) fun v =>
    s.intoF fmt (4 : BitVec s.bits) rd (v.setWidth fmt.bits)

/-- Stores (R209). -/
def floatStore (fmt : Fmt) (rs2 rs1 : Reg) (imm : BitVec 12) (s : State) : Result :=
  naming [rs1] s <| .next <|
    s.storing (fmt.bits / 8) (s.addrI s.bits rs1 imm) ((s.readF fmt rs2).setWidth (8 * (fmt.bits / 8))) fun t =>
      t.proceed (4 : BitVec s.bits)

/-- Fused multiply-add and its three relatives (R210). -/
def floatFma (fmt : Fmt) (op : FmaOp) (rd rs1 rs2 rs3 : Reg) (rm : BitVec 3) (s : State) : Result :=
  rounding rm s fun mode =>
    let call := .fma fmt op mode (fpuArg (s.readF fmt rs1)) (fpuArg (s.readF fmt rs2)) (fpuArg (s.readF fmt rs3))
    s.intoFpu fmt rd call (fpuValue fmt.bits call)

/-- Add, subtract, multiply, divide (R214). -/
def floatArith (fmt : Fmt) (op : ArithOp) (rd rs1 rs2 : Reg) (rm : BitVec 3) (s : State) : Result :=
  rounding rm s fun mode =>
    let call := .arith fmt op mode (fpuArg (s.readF fmt rs1)) (fpuArg (s.readF fmt rs2))
    s.intoFpu fmt rd call (fpuValue fmt.bits call)

/-- Square root (R218). -/
def floatSqrt (fmt : Fmt) (rd rs1 : Reg) (rm : BitVec 3) (s : State) : Result :=
  rounding rm s fun mode =>
    let call := .sqrt fmt mode (fpuArg (s.readF fmt rs1))
    s.intoFpu fmt rd call (fpuValue fmt.bits call)

/-- Sign injection: f of the two signs replaces the sign of f[rs1]; no flag (R219). -/
def floatSign (fmt : Fmt) (rd rs1 rs2 : Reg) (s : State) (f : Bool → Bool → Bool) : Result :=
  let a := s.readF fmt rs1
  .next <| s.intoF fmt (4 : BitVec s.bits) rd (withSign a (f (signBit a) (signBit (s.readF fmt rs2))))

/-- Minimum and maximum (R222). -/
def floatMinMax (fmt : Fmt) (op : MinMaxOp) (rd rs1 rs2 : Reg) (s : State) : Result :=
  let a := s.readF fmt rs1
  let b := s.readF fmt rs2
  let call := .minmax fmt op (fpuArg a) (fpuArg b)
  .next <| s.intoFpu fmt rd call ((exactMinMax fmt op a b).getD (fpuValue fmt.bits call))

/-- Comparisons (R224). -/
def floatCompare (fmt : Fmt) (op : CmpOp) (rd rs1 rs2 : Reg) (s : State) : Result :=
  let a := s.readF fmt rs1
  let b := s.readF fmt rs2
  naming [rd] s <| .next <|
    (s.accrue (.compare fmt op (fpuArg a) (fpuArg b))).intoX rd (ofBool s.bits (compare fmt op a b))

/-- Classification (R227). -/
def floatClass (fmt : Fmt) (rd rs1 : Reg) (s : State) : Result :=
  naming [rd] s <| .next <| s.intoX rd ((fclass fmt (s.readF fmt rs1)).setWidth s.bits)

/-- Conversion to an integer; a 32-bit result is sign-extended, that of the unsigned kind too (R228). -/
def floatToInt (fmt : Fmt) (kind : IntKind) (rd rs1 : Reg) (rm : BitVec 3) (s : State) : Result :=
  naming [rd] s <| rounding rm s fun mode =>
    let a := s.readF fmt rs1
    let call := .toInt fmt kind mode (fpuArg a)
    (s.accrue call).intoX rd (((exactToInt fmt kind a).getD (fpuValue kind.bits call)).signExtend s.bits)

/-- Conversion from an integer (R229). -/
def floatFromInt (fmt : Fmt) (kind : IntKind) (rd rs1 : Reg) (rm : BitVec 3) (s : State) : Result :=
  naming [rs1] s <| rounding rm s fun mode =>
    let a := s.readX kind.bits rs1
    let call := .fromInt fmt kind mode (fpuArg a)
    s.intoFpu fmt rd call ((exactFromInt fmt kind a).getD (fpuValue fmt.bits call))

/-- Conversion between formats (R268, R269). -/
def floatConvert (src dst : Fmt) (rd rs1 : Reg) (rm : BitVec 3) (s : State) : Result :=
  rounding rm s fun mode =>
    let a := s.readF src rs1
    let call := .convert src dst mode (fpuArg a)
    s.intoFpu dst rd call ((exactConvert src dst a).getD (fpuValue dst.bits call))

/-- Bit copy to a general register, sign-extended (R236). -/
def floatToX (fmt : Fmt) (rd rs1 : Reg) (s : State) : Result :=
  naming [rd] s <| .next <| s.intoX rd ((s.readF fmt rs1).signExtend s.bits)

/-- Bit copy from a general register (R237). -/
def floatFromX (fmt : Fmt) (rd rs1 : Reg) (s : State) : Result :=
  naming [rs1] s <| .next <| s.intoF fmt (4 : BitVec s.bits) rd (s.readX fmt.bits rs1)

end Sys2Proof.Machine
end

