-- ==== Sys2Proof/Machine/Compressed.lean ====
section
/-! DEFINITION. The compressed instructions (spec/42_compressed.md R123 to R164). A primed register field never names
x16..x31, so only full fields are checked under REDUCED_ABI. -/

namespace Sys2Proof.Machine

/-! ## Shapes -/

/-- `x[8+rd'] <- f(x[8+rd'], x[8+rs2']); pc <- npc`. -/
def cRegOp (rd rs2 : CReg) (s : State) (f : BitVec s.bits → BitVec s.bits → BitVec s.bits) : Result :=
  .next <| s.intoXC rd.reg (f (s.readX s.bits rd.reg) (s.readX s.bits rs2.reg))

/-- `x[8+rd'] <- sext_32(f(x[8+rd'][31:0], x[8+rs2'][31:0])); pc <- npc`, RV64 only. -/
def cWordOp (rd rs2 : CReg) (s : State) (f : BitVec 32 → BitVec 32 → BitVec 32) : Result :=
  onlyOn .rv64 s <| .next <| s.intoXC rd.reg (wordResult s.bits (f (s.readX 32 rd.reg) (s.readX 32 rs2.reg)))

/-- `x[rd] <- f(x[rd], shamt); pc <- npc`, a shamt of 32 or more being IllegalInstruction on RV32 (R139). -/
def cShiftOp (rd : Reg) (shamt : BitVec 6) (s : State) (f : BitVec s.bits → Nat → BitVec s.bits) : Result :=
  naming [rd] s <| .next <|
    if s.shamtLegal shamt then s.intoXC rd (f (s.readX s.bits rd) shamt.toNat) else s.halt .illegalInstruction

/-- `if c(x[8+rs1']) then pc <- pc + offset else pc <- npc` (R149). -/
def cBranchOp (rs1 : CReg) (off : BitVec 8) (s : State) (c : BitVec s.bits → Bool) : Result :=
  .next <| s.retire false <| if c (s.readX s.bits rs1.reg) then s.target s.bits off else s.npc s.bits 2

/-- `x[rd] <- ext(MemRead(a, k)); pc <- npc`. -/
def cLoad (k : Nat) (rd : Reg) (s : State) (a : BitVec s.bits) : Result :=
  naming [rd] s <| .next <| s.loading k a fun v => s.intoXC rd (v.signExtend s.bits)

/-- `MemWrite(a, k, x[rs2] low bytes); pc <- npc`. -/
def cStore (k : Nat) (rs2 : Reg) (s : State) (a : BitVec s.bits) : Result :=
  naming [rs2] s <| .next <| s.storing k a (s.readX (8 * k) rs2) fun t => t.proceed (2 : BitVec s.bits)

/-- `f[rd] <- MemRead(a, k)` in the view of a format of k bytes; `pc <- npc`. -/
def cFloatLoad (fmt : Fmt) (rd : Reg) (s : State) (a : BitVec s.bits) : Result :=
  .next <| s.loading (fmt.bits / 8) a fun v => s.intoF fmt (2 : BitVec s.bits) rd (v.setWidth fmt.bits)

/-- `MemWrite(a, k, f[rs2])` in the view of a format of k bytes; `pc <- npc`. -/
def cFloatStore (fmt : Fmt) (rs2 : Reg) (s : State) (a : BitVec s.bits) : Result :=
  .next <| s.storing (fmt.bits / 8) a ((s.readF fmt rs2).setWidth (8 * (fmt.bits / 8))) fun t =>
    t.proceed (2 : BitVec s.bits)

/-! ## Instructions -/

/-- c.addi4spn rd', sp, nzuimm (R123). -/
def execCAddi4spn (rd : CReg) (nzuimm : BitVec 8) (s : State) : Result :=
  .next <| s.intoXC rd.reg (s.addrC s.bits 2 Reg.sp nzuimm)

/-- c.fld rd', uimm(rs1') (R124). -/
def execCFld (rd rs1 : CReg) (uimm : BitVec 5) (s : State) : Result :=
  cFloatLoad .d rd.reg s (s.addrC s.bits 3 rs1.reg uimm)

/-- c.lw rd', uimm(rs1') (R125). -/
def execCLw (rd rs1 : CReg) (uimm : BitVec 5) (s : State) : Result :=
  cLoad 4 rd.reg s (s.addrC s.bits 2 rs1.reg uimm)

/-- c.flw rd', uimm(rs1') (R126). -/
def execCFlw (rd rs1 : CReg) (uimm : BitVec 5) (s : State) : Result :=
  onlyOn .rv32 s <| cFloatLoad .s rd.reg s (s.addrC s.bits 2 rs1.reg uimm)

/-- c.ld rd', uimm(rs1') (R127). -/
def execCLd (rd rs1 : CReg) (uimm : BitVec 5) (s : State) : Result :=
  onlyOn .rv64 s <| cLoad 8 rd.reg s (s.addrC s.bits 3 rs1.reg uimm)

/-- c.fsd rs2', uimm(rs1') (R128). -/
def execCFsd (rs2 rs1 : CReg) (uimm : BitVec 5) (s : State) : Result :=
  cFloatStore .d rs2.reg s (s.addrC s.bits 3 rs1.reg uimm)

/-- c.sw rs2', uimm(rs1') (R129). -/
def execCSw (rs2 rs1 : CReg) (uimm : BitVec 5) (s : State) : Result :=
  cStore 4 rs2.reg s (s.addrC s.bits 2 rs1.reg uimm)

/-- c.fsw rs2', uimm(rs1') (R130). -/
def execCFsw (rs2 rs1 : CReg) (uimm : BitVec 5) (s : State) : Result :=
  onlyOn .rv32 s <| cFloatStore .s rs2.reg s (s.addrC s.bits 2 rs1.reg uimm)

/-- c.sd rs2', uimm(rs1') (R131). -/
def execCSd (rs2 rs1 : CReg) (uimm : BitVec 5) (s : State) : Result :=
  onlyOn .rv64 s <| cStore 8 rs2.reg s (s.addrC s.bits 3 rs1.reg uimm)

/-- c.nop (R132). -/
def execCNop (s : State) : Result :=
  .next <| s.proceed (2 : BitVec s.bits)

/-- c.addi rd, nzimm (R133). -/
def execCAddi (rd : Reg) (imm : BitVec 6) (s : State) : Result :=
  naming [rd] s <| .next <| s.intoXC rd (s.readX s.bits rd + signedImm s.bits 0 imm)

/-- c.jal offset (R134). -/
def execCJal (off : BitVec 11) (s : State) : Result :=
  onlyOn .rv32 s <| .next <| s.intoXThen true Reg.ra (s.pcVal s.bits + 2) (s.target s.bits off)

/-- c.addiw rd, imm (R135). -/
def execCAddiw (rd : Reg) (imm : BitVec 6) (s : State) : Result :=
  onlyOn .rv64 s <| naming [rd] s <| .next <|
    s.intoXC rd (wordResult s.bits (s.readX 32 rd + signedImm 32 0 imm))

/-- c.li rd, imm (R136). -/
def execCLi (rd : Reg) (imm : BitVec 6) (s : State) : Result :=
  naming [rd] s <| .next <| s.intoXC rd (signedImm s.bits 0 imm)

/-- c.addi16sp sp, nzimm (R137). -/
def execCAddi16sp (nzimm : BitVec 6) (s : State) : Result :=
  .next <| s.intoXC Reg.sp (s.readX s.bits Reg.sp + signedImm s.bits 4 nzimm)

/-- c.lui rd, nzimm (R138). -/
def execCLui (rd : Reg) (nzimm : BitVec 6) (s : State) : Result :=
  naming [rd] s <| .next <| s.intoXC rd (signedImm s.bits 12 nzimm)

/-- c.srli rd', shamt (R139). -/
def execCSrli (rd : CReg) (shamt : BitVec 6) (s : State) : Result :=
  cShiftOp rd.reg shamt s fun a k => a >>> k

/-- c.srai rd', shamt (R140). -/
def execCSrai (rd : CReg) (shamt : BitVec 6) (s : State) : Result :=
  cShiftOp rd.reg shamt s fun a k => a.sshiftRight k

/-- c.andi rd', imm (R141). -/
def execCAndi (rd : CReg) (imm : BitVec 6) (s : State) : Result :=
  .next <| s.intoXC rd.reg (s.readX s.bits rd.reg &&& signedImm s.bits 0 imm)

/-- c.sub rd', rs2' (R142). -/
def execCSub (rd rs2 : CReg) (s : State) : Result :=
  cRegOp rd rs2 s fun a b => a - b

/-- c.xor rd', rs2' (R143). -/
def execCXor (rd rs2 : CReg) (s : State) : Result :=
  cRegOp rd rs2 s fun a b => a ^^^ b

/-- c.or rd', rs2' (R144). -/
def execCOr (rd rs2 : CReg) (s : State) : Result :=
  cRegOp rd rs2 s fun a b => a ||| b

/-- c.and rd', rs2' (R145). -/
def execCAnd (rd rs2 : CReg) (s : State) : Result :=
  cRegOp rd rs2 s fun a b => a &&& b

/-- c.subw rd', rs2' (R146). -/
def execCSubw (rd rs2 : CReg) (s : State) : Result :=
  cWordOp rd rs2 s fun a b => a - b

/-- c.addw rd', rs2' (R147). -/
def execCAddw (rd rs2 : CReg) (s : State) : Result :=
  cWordOp rd rs2 s fun a b => a + b

/-- c.j offset (R148). -/
def execCJ (off : BitVec 11) (s : State) : Result :=
  .next <| s.retire false (s.target s.bits off)

/-- c.beqz rs1', offset (R149). -/
def execCBeqz (rs1 : CReg) (off : BitVec 8) (s : State) : Result :=
  cBranchOp rs1 off s fun a => a == 0

/-- c.bnez rs1', offset (R150). -/
def execCBnez (rs1 : CReg) (off : BitVec 8) (s : State) : Result :=
  cBranchOp rs1 off s fun a => a != 0

/-- c.slli rd, shamt (R151). -/
def execCSlli (rd : Reg) (shamt : BitVec 6) (s : State) : Result :=
  cShiftOp rd shamt s fun a k => a <<< k

/-- c.fldsp rd, uimm(sp) (R152). -/
def execCFldsp (rd : Reg) (uimm : BitVec 6) (s : State) : Result :=
  cFloatLoad .d rd s (s.addrC s.bits 3 Reg.sp uimm)

/-- c.lwsp rd, uimm(sp) (R153). -/
def execCLwsp (rd : Reg) (uimm : BitVec 6) (s : State) : Result :=
  cLoad 4 rd s (s.addrC s.bits 2 Reg.sp uimm)

/-- c.flwsp rd, uimm(sp) (R154). -/
def execCFlwsp (rd : Reg) (uimm : BitVec 6) (s : State) : Result :=
  onlyOn .rv32 s <| cFloatLoad .s rd s (s.addrC s.bits 2 Reg.sp uimm)

/-- c.ldsp rd, uimm(sp) (R155). -/
def execCLdsp (rd : Reg) (uimm : BitVec 6) (s : State) : Result :=
  onlyOn .rv64 s <| cLoad 8 rd s (s.addrC s.bits 3 Reg.sp uimm)

/-- c.jr rs1 (R156). -/
def execCJr (rs1 : Reg) (s : State) : Result :=
  naming [rs1] s <| .next <| s.retire false (clearBit0 (s.readX s.bits rs1))

/-- c.mv rd, rs2 (R157). -/
def execCMv (rd rs2 : Reg) (s : State) : Result :=
  naming [rd, rs2] s <| .next <| s.intoXC rd (s.readX s.bits rs2)

/-- c.ebreak (R158). -/
def execCEbreak (s : State) : Result :=
  .next <| s.halt .breakpoint

/-- c.jalr rs1 (R159). -/
def execCJalr (rs1 : Reg) (s : State) : Result :=
  naming [rs1] s <| .next <|
    s.intoXThen true Reg.ra (s.pcVal s.bits + 2) (clearBit0 (s.readX s.bits rs1))

/-- c.add rd, rs2 (R160). -/
def execCAdd (rd rs2 : Reg) (s : State) : Result :=
  naming [rd, rs2] s <| .next <| s.intoXC rd (s.readX s.bits rd + s.readX s.bits rs2)

/-- c.fsdsp rs2, uimm(sp) (R161). -/
def execCFsdsp (rs2 : Reg) (uimm : BitVec 6) (s : State) : Result :=
  cFloatStore .d rs2 s (s.addrC s.bits 3 Reg.sp uimm)

/-- c.swsp rs2, uimm(sp) (R162). -/
def execCSwsp (rs2 : Reg) (uimm : BitVec 6) (s : State) : Result :=
  cStore 4 rs2 s (s.addrC s.bits 2 Reg.sp uimm)

/-- c.fswsp rs2, uimm(sp) (R163). -/
def execCFswsp (rs2 : Reg) (uimm : BitVec 6) (s : State) : Result :=
  onlyOn .rv32 s <| cFloatStore .s rs2 s (s.addrC s.bits 2 Reg.sp uimm)

/-- c.sdsp rs2, uimm(sp) (R164). -/
def execCSdsp (rs2 : Reg) (uimm : BitVec 6) (s : State) : Result :=
  onlyOn .rv64 s <| cStore 8 rs2 s (s.addrC s.bits 3 Reg.sp uimm)

end Sys2Proof.Machine
end

