-- ==== Sys2Proof/Machine/Csr.lean ====
section
/-! DEFINITION. The CSR file and the six CSR instructions (spec/10_state.md R17 to R21, spec/41_base_integer.md R117 to R122). -/

namespace Sys2Proof.Machine

/-- The CSRs (spec/10_state.md R17). -/
inductive Csr where
  | fflags
  | frm
  | fcsr
  | cycle
  | time
  | instret
  | cycleh
  | timeh
  | instreth
  | uitb
  | ucode
  | mvendorid
  | marchid
  | mimpid
  | mhartid
  deriving DecidableEq, Repr

/-- The CSR of a number; another number names none (R17). -/
def Csr.ofNumber (number : BitVec 12) : Option Csr :=
  match number.toNat with
  | 0x001 => some .fflags
  | 0x002 => some .frm
  | 0x003 => some .fcsr
  | 0x800 => some .uitb
  | 0x801 => some .ucode
  | 0xC00 => some .cycle
  | 0xC01 => some .time
  | 0xC02 => some .instret
  | 0xC80 => some .cycleh
  | 0xC81 => some .timeh
  | 0xC82 => some .instreth
  | 0xF11 => some .mvendorid
  | 0xF12 => some .marchid
  | 0xF13 => some .mimpid
  | 0xF14 => some .mhartid
  | _ => none

/-- The high halves of the counters, which exist on RV32 only (R20). -/
def Csr.isHighHalf : Csr → Bool
  | .cycleh | .timeh | .instreth => true
  | _ => false

/-- A read of the CSR takes a draw: the counters always, fcsr while its upper bits are open (R18). -/
def State.csrTakesDraw (s : State) : Csr → Bool
  | .cycle | .time | .instret | .cycleh | .timeh | .instreth => true
  | .fcsr => s.hart.fcsrOpen
  | _ => false

/-- CsrRead: the value read, before the draw it takes is counted (R18). -/
def State.csrValue (s : State) (n : Nat) : Csr → BitVec n
  | .fflags => s.hart.fflags.setWidth n
  | .frm => s.hart.frm.setWidth n
  | .fcsr =>
    (s.hart.frm ++ s.hart.fflags).setWidth n |||
      (if s.hart.fcsrOpen then (s.drawn.setWidth n >>> 8) <<< 8 else 0)
  | .cycle | .time | .instret | .cycleh | .timeh | .instreth => s.drawn.setWidth n
  | .uitb => s.hart.uitb.setWidth n
  | .ucode => s.hart.ucode.setWidth n
  | .mvendorid => s.hart.mvendorid.setWidth n
  | .marchid => s.hart.marchid.setWidth n
  | .mimpid => s.hart.mimpid.setWidth n
  | .mhartid => s.hart.mhartid.setWidth n

/-- CsrWrite (R19). -/
def State.csrWrite {n : Nat} (s : State) (c : Csr) (v : BitVec n) : State :=
  s.setHart <| match c with
    | .fflags => { s.hart with fflags := v.setWidth 5 }
    | .frm => { s.hart with frm := v.setWidth 3 }
    | .fcsr =>
      { s.hart with frm := v.extractLsb' 5 3, fflags := v.setWidth 5, fcsrOpen := (v >>> 8) != 0 }
    | .cycle => { s.hart with cycle := v.setWidth 64 }
    | .time => { s.hart with time := v.setWidth 64 }
    | .instret => { s.hart with instret := v.setWidth 64 }
    | .cycleh => { s.hart with cycleh := v.setWidth 32 }
    | .timeh => { s.hart with timeh := v.setWidth 32 }
    | .instreth => { s.hart with instreth := v.setWidth 32 }
    | .uitb => { s.hart with uitb := v.setWidth 64 }
    | .ucode => { s.hart with ucode := v.setWidth 64 }
    | .mvendorid => { s.hart with mvendorid := v.setWidth 64 }
    | .marchid => { s.hart with marchid := v.setWidth 64 }
    | .mimpid => { s.hart with mimpid := v.setWidth 64 }
    | .mhartid => { s.hart with mhartid := v.setWidth 64 }

/-- A CSR instruction: the old value goes to x[rd], `update old` to the CSR; the read and the write always happen.
A high-half counter on RV64 is IllegalInstruction with nothing changed (R20), a number outside the set is REFUSED (R17). -/
def csrAccess (rd : Reg) (number : BitVec 12) (s : State) (update : BitVec s.bits → BitVec s.bits) : Result :=
  match Csr.ofNumber number with
  | none => .refused .unknownCsr
  | some c =>
    if c.isHighHalf && s.params.xlen == .rv64 then .next (s.halt .illegalInstruction)
    else
      let old := s.csrValue s.bits c
      let read := if s.csrTakesDraw c then s.takeDraw else s
      .next (((read.writeX rd old).csrWrite c (update old)).retire (rd == Reg.sp) (s.npc s.bits 4))

/-- csrrw rd, csr, rs1 (R117). -/
def execCsrrw (rd : Reg) (csr : BitVec 12) (rs1 : Reg) (s : State) : Result :=
  naming [rd, rs1] s <| csrAccess rd csr s fun _ => s.readX s.bits rs1

/-- csrrs rd, csr, rs1 (R118). -/
def execCsrrs (rd : Reg) (csr : BitVec 12) (rs1 : Reg) (s : State) : Result :=
  naming [rd, rs1] s <| csrAccess rd csr s fun old => old ||| s.readX s.bits rs1

/-- csrrc rd, csr, rs1 (R119). -/
def execCsrrc (rd : Reg) (csr : BitVec 12) (rs1 : Reg) (s : State) : Result :=
  naming [rd, rs1] s <| csrAccess rd csr s fun old => old &&& ~~~s.readX s.bits rs1

/-- csrrwi rd, csr, uimm5 (R120). -/
def execCsrrwi (rd : Reg) (csr : BitVec 12) (uimm : BitVec 5) (s : State) : Result :=
  naming [rd] s <| csrAccess rd csr s fun _ => unsignedImm s.bits 0 uimm

/-- csrrsi rd, csr, uimm5 (R121). -/
def execCsrrsi (rd : Reg) (csr : BitVec 12) (uimm : BitVec 5) (s : State) : Result :=
  naming [rd] s <| csrAccess rd csr s fun old => old ||| unsignedImm s.bits 0 uimm

/-- csrrci rd, csr, uimm5 (R122). -/
def execCsrrci (rd : Reg) (csr : BitVec 12) (uimm : BitVec 5) (s : State) : Result :=
  naming [rd] s <| csrAccess rd csr s fun old => old &&& ~~~unsignedImm s.bits 0 uimm

end Sys2Proof.Machine
end

