-- ==== Sys2Proof/Machine/Fetch.lean ====
section
/-! DEFINITION. One step but for what an instruction does: the refused mark, the scheduler, the fetch and the decode
(spec/40_helpers.md R54, spec/20_memory.md R32, spec/60_exceptions.md R395, R400). It is noncomputable as the decoder is. -/

namespace Sys2Proof.Machine

noncomputable section

/-- A word that decodes to no instruction: IllegalInstruction, or REFUSED for the spaces of spec/30_encoding.md R47.
A fetched word is never too short. -/
def State.rejected (s : State) : Reject → Result
  | .illegal => .next (s.halt .illegalInstruction)
  | .unmatchedHalf => .refused .unmatchedHalf
  | .packedSpace => .refused .packedSpace
  | .customSpace => .refused .customSpace
  | .tooShort => .refused .unmatchedHalf

/-- Decode a parcel against the hart's table (spec/30_encoding.md R44) and run the instruction. -/
def State.decodeRun (s : State) (run : Instr → State → Result) (p : Parcel) : Result :=
  match decode s.params.xlen s.params.openRows p with
  | .ok i => run i s
  | .error r => s.rejected r

/-- Fetch at the pc, 16 bits and 16 more for a 32-bit instruction, decode and run. A refused request leaves the hart stuck
(spec/20_memory.md R28, R32); an odd pc, which only a launch can give, is REFUSED (spec/10_state.md R14). -/
def State.fetchRun (s : State) (run : Instr → State → Result) : Result :=
  let pc := s.pcVal s.bits
  if pc.getLsbD 0 then .refused .oddPc
  else if !s.params.admits pc.toNat 2 .fetch then .next s.stuck
  else
    let low : BitVec 16 := s.mem.load pc 2
    if !isFull low then s.decodeRun run (.half low)
    else if !s.params.admits (pc + 2).toNat 2 .fetch then .next s.stuck
    else s.decodeRun run (.full (s.mem.load (pc + 2) 2 ++ low))

/-- The end of a step of s: a refusal is recorded in the state (spec/00_scope.md R8 d; log 14). -/
def State.recording (s : State) : Result → Result
  | .refused r => .next (s.refuse r)
  | .next t => .next t
  | .fault r => .fault r

/-- One step, `run` being what an instruction does. A step that is refused sets the refused mark, a set mark ends every run
with its reason, and there is no step once the host has answered Exit or when no hart runs (spec/00_scope.md R8,
spec/60_exceptions.md R400; logs 14, 15). -/
def State.stepWith (s : State) (run : Instr → State → Result) : Result :=
  match s.refusedMark with
  | some r => .refused r
  | none =>
    if s.exited then .fault .runEnded
    else
      match s.pick with
      | some t => t.recording (t.fetchRun run)
      | none => .fault .noRunningHart

/-- The bytes at consecutive addresses from a. -/
def Memory.place {n : Nat} (m : Memory) (a : BitVec n) : List Byte → Memory
  | [] => m
  | b :: bs => (m.write a.toNat b).place (a + 1) bs

/-- The state with an instruction's bytes stored where the next step fetches: at the pc of the hart the scheduler picks
(log 26). -/
def State.placeInstr (s : State) (bytes : List Byte) : State :=
  match s.pick with
  | some t => { s with mem := s.mem.place (t.pcVal s.bits) bytes }
  | none => s

end

end Sys2Proof.Machine
end

