-- ==== Sys2Proof/Machine/FloatDouble.lean ====
section
/-! DEFINITION. The double-precision instructions and the conversions between single and double (spec/45_float.md R238 to R269). -/

namespace Sys2Proof.Machine

/-- fld rd, offset(rs1) (R238). -/
def execFld (rd rs1 : Reg) (imm : BitVec 12) (s : State) : Result :=
  floatLoad .d rd rs1 imm s

/-- fsd rs2, offset(rs1) (R239). -/
def execFsd (rs2 rs1 : Reg) (imm : BitVec 12) (s : State) : Result :=
  floatStore .d rs2 rs1 imm s

/-- fmadd.d rd, rs1, rs2, rs3, rm (R240). -/
def execFmaddD (rd rs1 rs2 rs3 : Reg) (rm : BitVec 3) (s : State) : Result :=
  floatFma .d .madd rd rs1 rs2 rs3 rm s

/-- fmsub.d rd, rs1, rs2, rs3, rm (R241). -/
def execFmsubD (rd rs1 rs2 rs3 : Reg) (rm : BitVec 3) (s : State) : Result :=
  floatFma .d .msub rd rs1 rs2 rs3 rm s

/-- fnmsub.d rd, rs1, rs2, rs3, rm (R242). -/
def execFnmsubD (rd rs1 rs2 rs3 : Reg) (rm : BitVec 3) (s : State) : Result :=
  floatFma .d .nmsub rd rs1 rs2 rs3 rm s

/-- fnmadd.d rd, rs1, rs2, rs3, rm (R243). -/
def execFnmaddD (rd rs1 rs2 rs3 : Reg) (rm : BitVec 3) (s : State) : Result :=
  floatFma .d .nmadd rd rs1 rs2 rs3 rm s

/-- fadd.d rd, rs1, rs2, rm (R244). -/
def execFaddD (rd rs1 rs2 : Reg) (rm : BitVec 3) (s : State) : Result :=
  floatArith .d .add rd rs1 rs2 rm s

/-- fsub.d rd, rs1, rs2, rm (R245). -/
def execFsubD (rd rs1 rs2 : Reg) (rm : BitVec 3) (s : State) : Result :=
  floatArith .d .sub rd rs1 rs2 rm s

/-- fmul.d rd, rs1, rs2, rm (R246). -/
def execFmulD (rd rs1 rs2 : Reg) (rm : BitVec 3) (s : State) : Result :=
  floatArith .d .mul rd rs1 rs2 rm s

/-- fdiv.d rd, rs1, rs2, rm (R247). -/
def execFdivD (rd rs1 rs2 : Reg) (rm : BitVec 3) (s : State) : Result :=
  floatArith .d .div rd rs1 rs2 rm s

/-- fsqrt.d rd, rs1, rm (R248). -/
def execFsqrtD (rd rs1 : Reg) (rm : BitVec 3) (s : State) : Result :=
  floatSqrt .d rd rs1 rm s

/-- fsgnj.d rd, rs1, rs2 (R249). -/
def execFsgnjD (rd rs1 rs2 : Reg) (s : State) : Result :=
  floatSign .d rd rs1 rs2 s fun _ sb => sb

/-- fsgnjn.d rd, rs1, rs2 (R250). -/
def execFsgnjnD (rd rs1 rs2 : Reg) (s : State) : Result :=
  floatSign .d rd rs1 rs2 s fun _ sb => !sb

/-- fsgnjx.d rd, rs1, rs2 (R251). -/
def execFsgnjxD (rd rs1 rs2 : Reg) (s : State) : Result :=
  floatSign .d rd rs1 rs2 s fun sa sb => sa ^^ sb

/-- fmin.d rd, rs1, rs2 (R252). -/
def execFminD (rd rs1 rs2 : Reg) (s : State) : Result :=
  floatMinMax .d .min rd rs1 rs2 s

/-- fmax.d rd, rs1, rs2 (R253). -/
def execFmaxD (rd rs1 rs2 : Reg) (s : State) : Result :=
  floatMinMax .d .max rd rs1 rs2 s

/-- feq.d rd, rs1, rs2 (R254). -/
def execFeqD (rd rs1 rs2 : Reg) (s : State) : Result :=
  floatCompare .d .eq rd rs1 rs2 s

/-- flt.d rd, rs1, rs2 (R255). -/
def execFltD (rd rs1 rs2 : Reg) (s : State) : Result :=
  floatCompare .d .lt rd rs1 rs2 s

/-- fle.d rd, rs1, rs2 (R256). -/
def execFleD (rd rs1 rs2 : Reg) (s : State) : Result :=
  floatCompare .d .le rd rs1 rs2 s

/-- fclass.d rd, rs1 (R257). -/
def execFclassD (rd rs1 : Reg) (s : State) : Result :=
  floatClass .d rd rs1 s

/-- fcvt.w.d rd, rs1, rm (R258). -/
def execFcvtWD (rd rs1 : Reg) (rm : BitVec 3) (s : State) : Result :=
  floatToInt .d .s32 rd rs1 rm s

/-- fcvt.d.w rd, rs1, rm (R259). -/
def execFcvtDW (rd rs1 : Reg) (rm : BitVec 3) (s : State) : Result :=
  floatFromInt .d .s32 rd rs1 rm s

/-- fcvt.wu.d rd, rs1, rm (R260). -/
def execFcvtWuD (rd rs1 : Reg) (rm : BitVec 3) (s : State) : Result :=
  floatToInt .d .u32 rd rs1 rm s

/-- fcvt.d.wu rd, rs1, rm (R261). -/
def execFcvtDWu (rd rs1 : Reg) (rm : BitVec 3) (s : State) : Result :=
  floatFromInt .d .u32 rd rs1 rm s

/-- fcvt.l.d rd, rs1, rm (R262). -/
def execFcvtLD (rd rs1 : Reg) (rm : BitVec 3) (s : State) : Result :=
  onlyOn .rv64 s <| floatToInt .d .s64 rd rs1 rm s

/-- fcvt.d.l rd, rs1, rm (R263). -/
def execFcvtDL (rd rs1 : Reg) (rm : BitVec 3) (s : State) : Result :=
  onlyOn .rv64 s <| floatFromInt .d .s64 rd rs1 rm s

/-- fcvt.lu.d rd, rs1, rm (R264). -/
def execFcvtLuD (rd rs1 : Reg) (rm : BitVec 3) (s : State) : Result :=
  onlyOn .rv64 s <| floatToInt .d .u64 rd rs1 rm s

/-- fcvt.d.lu rd, rs1, rm (R265). -/
def execFcvtDLu (rd rs1 : Reg) (rm : BitVec 3) (s : State) : Result :=
  onlyOn .rv64 s <| floatFromInt .d .u64 rd rs1 rm s

/-- fmv.x.d rd, rs1 (R266). -/
def execFmvXD (rd rs1 : Reg) (s : State) : Result :=
  onlyOn .rv64 s <| floatToX .d rd rs1 s

/-- fmv.d.x rd, rs1 (R267). -/
def execFmvDX (rd rs1 : Reg) (s : State) : Result :=
  onlyOn .rv64 s <| floatFromX .d rd rs1 s

/-- fcvt.s.d rd, rs1, rm (R268). -/
def execFcvtSD (rd rs1 : Reg) (rm : BitVec 3) (s : State) : Result :=
  floatConvert .d .s rd rs1 rm s

/-- fcvt.d.s rd, rs1, rm (R269). -/
def execFcvtDS (rd rs1 : Reg) (rm : BitVec 3) (s : State) : Result :=
  floatConvert .s .d rd rs1 rm s

end Sys2Proof.Machine
end

