-- ==== Sys2Proof/Machine/FloatHalf.lean ====
section
/-! DEFINITION. The half-precision instructions and the bf16 conversions (spec/46_float_half_bf16.md R270 to R305). -/

namespace Sys2Proof.Machine

/-- flh rd, offset(rs1) (R270). -/
def execFlh (rd rs1 : Reg) (imm : BitVec 12) (s : State) : Result :=
  floatLoad .h rd rs1 imm s

/-- fsh rs2, offset(rs1) (R271). -/
def execFsh (rs2 rs1 : Reg) (imm : BitVec 12) (s : State) : Result :=
  floatStore .h rs2 rs1 imm s

/-- fmadd.h rd, rs1, rs2, rs3, rm (R272). -/
def execFmaddH (rd rs1 rs2 rs3 : Reg) (rm : BitVec 3) (s : State) : Result :=
  floatFma .h .madd rd rs1 rs2 rs3 rm s

/-- fmsub.h rd, rs1, rs2, rs3, rm (R273). -/
def execFmsubH (rd rs1 rs2 rs3 : Reg) (rm : BitVec 3) (s : State) : Result :=
  floatFma .h .msub rd rs1 rs2 rs3 rm s

/-- fnmsub.h rd, rs1, rs2, rs3, rm (R274). -/
def execFnmsubH (rd rs1 rs2 rs3 : Reg) (rm : BitVec 3) (s : State) : Result :=
  floatFma .h .nmsub rd rs1 rs2 rs3 rm s

/-- fnmadd.h rd, rs1, rs2, rs3, rm (R275). -/
def execFnmaddH (rd rs1 rs2 rs3 : Reg) (rm : BitVec 3) (s : State) : Result :=
  floatFma .h .nmadd rd rs1 rs2 rs3 rm s

/-- fadd.h rd, rs1, rs2, rm (R276). -/
def execFaddH (rd rs1 rs2 : Reg) (rm : BitVec 3) (s : State) : Result :=
  floatArith .h .add rd rs1 rs2 rm s

/-- fsub.h rd, rs1, rs2, rm (R277). -/
def execFsubH (rd rs1 rs2 : Reg) (rm : BitVec 3) (s : State) : Result :=
  floatArith .h .sub rd rs1 rs2 rm s

/-- fmul.h rd, rs1, rs2, rm (R278). -/
def execFmulH (rd rs1 rs2 : Reg) (rm : BitVec 3) (s : State) : Result :=
  floatArith .h .mul rd rs1 rs2 rm s

/-- fdiv.h rd, rs1, rs2, rm (R279). -/
def execFdivH (rd rs1 rs2 : Reg) (rm : BitVec 3) (s : State) : Result :=
  floatArith .h .div rd rs1 rs2 rm s

/-- fsqrt.h rd, rs1, rm (R280). -/
def execFsqrtH (rd rs1 : Reg) (rm : BitVec 3) (s : State) : Result :=
  floatSqrt .h rd rs1 rm s

/-- fsgnj.h rd, rs1, rs2 (R281). -/
def execFsgnjH (rd rs1 rs2 : Reg) (s : State) : Result :=
  floatSign .h rd rs1 rs2 s fun _ sb => sb

/-- fsgnjn.h rd, rs1, rs2 (R282). -/
def execFsgnjnH (rd rs1 rs2 : Reg) (s : State) : Result :=
  floatSign .h rd rs1 rs2 s fun _ sb => !sb

/-- fsgnjx.h rd, rs1, rs2 (R283). -/
def execFsgnjxH (rd rs1 rs2 : Reg) (s : State) : Result :=
  floatSign .h rd rs1 rs2 s fun sa sb => sa ^^ sb

/-- fmin.h rd, rs1, rs2 (R284). -/
def execFminH (rd rs1 rs2 : Reg) (s : State) : Result :=
  floatMinMax .h .min rd rs1 rs2 s

/-- fmax.h rd, rs1, rs2 (R285). -/
def execFmaxH (rd rs1 rs2 : Reg) (s : State) : Result :=
  floatMinMax .h .max rd rs1 rs2 s

/-- feq.h rd, rs1, rs2 (R286). -/
def execFeqH (rd rs1 rs2 : Reg) (s : State) : Result :=
  floatCompare .h .eq rd rs1 rs2 s

/-- flt.h rd, rs1, rs2 (R287). -/
def execFltH (rd rs1 rs2 : Reg) (s : State) : Result :=
  floatCompare .h .lt rd rs1 rs2 s

/-- fle.h rd, rs1, rs2 (R288). -/
def execFleH (rd rs1 rs2 : Reg) (s : State) : Result :=
  floatCompare .h .le rd rs1 rs2 s

/-- fclass.h rd, rs1 (R289). -/
def execFclassH (rd rs1 : Reg) (s : State) : Result :=
  floatClass .h rd rs1 s

/-- fcvt.w.h rd, rs1, rm (R290). -/
def execFcvtWH (rd rs1 : Reg) (rm : BitVec 3) (s : State) : Result :=
  floatToInt .h .s32 rd rs1 rm s

/-- fcvt.h.w rd, rs1, rm (R291). -/
def execFcvtHW (rd rs1 : Reg) (rm : BitVec 3) (s : State) : Result :=
  floatFromInt .h .s32 rd rs1 rm s

/-- fcvt.wu.h rd, rs1, rm (R292). -/
def execFcvtWuH (rd rs1 : Reg) (rm : BitVec 3) (s : State) : Result :=
  floatToInt .h .u32 rd rs1 rm s

/-- fcvt.h.wu rd, rs1, rm (R293). -/
def execFcvtHWu (rd rs1 : Reg) (rm : BitVec 3) (s : State) : Result :=
  floatFromInt .h .u32 rd rs1 rm s

/-- fcvt.l.h rd, rs1, rm (R294). -/
def execFcvtLH (rd rs1 : Reg) (rm : BitVec 3) (s : State) : Result :=
  onlyOn .rv64 s <| floatToInt .h .s64 rd rs1 rm s

/-- fcvt.h.l rd, rs1, rm (R295). -/
def execFcvtHL (rd rs1 : Reg) (rm : BitVec 3) (s : State) : Result :=
  onlyOn .rv64 s <| floatFromInt .h .s64 rd rs1 rm s

/-- fcvt.lu.h rd, rs1, rm (R296). -/
def execFcvtLuH (rd rs1 : Reg) (rm : BitVec 3) (s : State) : Result :=
  onlyOn .rv64 s <| floatToInt .h .u64 rd rs1 rm s

/-- fcvt.h.lu rd, rs1, rm (R297). -/
def execFcvtHLu (rd rs1 : Reg) (rm : BitVec 3) (s : State) : Result :=
  onlyOn .rv64 s <| floatFromInt .h .u64 rd rs1 rm s

/-- fmv.x.h rd, rs1 (R298). -/
def execFmvXH (rd rs1 : Reg) (s : State) : Result :=
  floatToX .h rd rs1 s

/-- fmv.h.x rd, rs1 (R299). -/
def execFmvHX (rd rs1 : Reg) (s : State) : Result :=
  floatFromX .h rd rs1 s

/-- fcvt.s.h rd, rs1, rm (R300). -/
def execFcvtSH (rd rs1 : Reg) (rm : BitVec 3) (s : State) : Result :=
  floatConvert .h .s rd rs1 rm s

/-- fcvt.h.s rd, rs1, rm (R301). -/
def execFcvtHS (rd rs1 : Reg) (rm : BitVec 3) (s : State) : Result :=
  floatConvert .s .h rd rs1 rm s

/-- fcvt.d.h rd, rs1, rm (R302). -/
def execFcvtDH (rd rs1 : Reg) (rm : BitVec 3) (s : State) : Result :=
  floatConvert .h .d rd rs1 rm s

/-- fcvt.h.d rd, rs1, rm (R303). -/
def execFcvtHD (rd rs1 : Reg) (rm : BitVec 3) (s : State) : Result :=
  floatConvert .d .h rd rs1 rm s

/-- fcvt.s.bf16 rd, rs1 (R304): `f[rd].S <- f[rs1].H << 16`, no flag. -/
def execFcvtSBf16 (rd rs1 : Reg) (s : State) : Result :=
  .next <| s.intoF .s (4 : BitVec s.bits) rd (s.readF .h rs1 ++ (0 : BitVec 16))

/-- fcvt.bf16.s rd, rs1 (R305): the rounding mode is frm. -/
def execFcvtBf16S (rd rs1 : Reg) (s : State) : Result :=
  rounding s.hart.frm s fun m =>
    let call := .toBF16 m ((s.readF .s rs1).setWidth 64)
    (s.accrue call).intoF .h (4 : BitVec s.bits) rd ((Config.fpu call).setWidth Fmt.h.bits)

end Sys2Proof.Machine
end

