-- ==== Sys2Proof/Machine/FloatSingle.lean ====
section
/-! DEFINITION. The single-precision instructions (spec/45_float.md R208 to R237). -/

namespace Sys2Proof.Machine

/-- flw rd, offset(rs1) (R208). -/
def execFlw (rd rs1 : Reg) (imm : BitVec 12) (s : State) : Result :=
  floatLoad .s rd rs1 imm s

/-- fsw rs2, offset(rs1) (R209). -/
def execFsw (rs2 rs1 : Reg) (imm : BitVec 12) (s : State) : Result :=
  floatStore .s rs2 rs1 imm s

/-- fmadd.s rd, rs1, rs2, rs3, rm (R210). -/
def execFmaddS (rd rs1 rs2 rs3 : Reg) (rm : BitVec 3) (s : State) : Result :=
  floatFma .s .madd rd rs1 rs2 rs3 rm s

/-- fmsub.s rd, rs1, rs2, rs3, rm (R211). -/
def execFmsubS (rd rs1 rs2 rs3 : Reg) (rm : BitVec 3) (s : State) : Result :=
  floatFma .s .msub rd rs1 rs2 rs3 rm s

/-- fnmsub.s rd, rs1, rs2, rs3, rm (R212). -/
def execFnmsubS (rd rs1 rs2 rs3 : Reg) (rm : BitVec 3) (s : State) : Result :=
  floatFma .s .nmsub rd rs1 rs2 rs3 rm s

/-- fnmadd.s rd, rs1, rs2, rs3, rm (R213). -/
def execFnmaddS (rd rs1 rs2 rs3 : Reg) (rm : BitVec 3) (s : State) : Result :=
  floatFma .s .nmadd rd rs1 rs2 rs3 rm s

/-- fadd.s rd, rs1, rs2, rm (R214). -/
def execFaddS (rd rs1 rs2 : Reg) (rm : BitVec 3) (s : State) : Result :=
  floatArith .s .add rd rs1 rs2 rm s

/-- fsub.s rd, rs1, rs2, rm (R215). -/
def execFsubS (rd rs1 rs2 : Reg) (rm : BitVec 3) (s : State) : Result :=
  floatArith .s .sub rd rs1 rs2 rm s

/-- fmul.s rd, rs1, rs2, rm (R216). -/
def execFmulS (rd rs1 rs2 : Reg) (rm : BitVec 3) (s : State) : Result :=
  floatArith .s .mul rd rs1 rs2 rm s

/-- fdiv.s rd, rs1, rs2, rm (R217). -/
def execFdivS (rd rs1 rs2 : Reg) (rm : BitVec 3) (s : State) : Result :=
  floatArith .s .div rd rs1 rs2 rm s

/-- fsqrt.s rd, rs1, rm (R218). -/
def execFsqrtS (rd rs1 : Reg) (rm : BitVec 3) (s : State) : Result :=
  floatSqrt .s rd rs1 rm s

/-- fsgnj.s rd, rs1, rs2 (R219). -/
def execFsgnjS (rd rs1 rs2 : Reg) (s : State) : Result :=
  floatSign .s rd rs1 rs2 s fun _ sb => sb

/-- fsgnjn.s rd, rs1, rs2 (R220). -/
def execFsgnjnS (rd rs1 rs2 : Reg) (s : State) : Result :=
  floatSign .s rd rs1 rs2 s fun _ sb => !sb

/-- fsgnjx.s rd, rs1, rs2 (R221). -/
def execFsgnjxS (rd rs1 rs2 : Reg) (s : State) : Result :=
  floatSign .s rd rs1 rs2 s fun sa sb => sa ^^ sb

/-- fmin.s rd, rs1, rs2 (R222). -/
def execFminS (rd rs1 rs2 : Reg) (s : State) : Result :=
  floatMinMax .s .min rd rs1 rs2 s

/-- fmax.s rd, rs1, rs2 (R223). -/
def execFmaxS (rd rs1 rs2 : Reg) (s : State) : Result :=
  floatMinMax .s .max rd rs1 rs2 s

/-- feq.s rd, rs1, rs2 (R224). -/
def execFeqS (rd rs1 rs2 : Reg) (s : State) : Result :=
  floatCompare .s .eq rd rs1 rs2 s

/-- flt.s rd, rs1, rs2 (R225). -/
def execFltS (rd rs1 rs2 : Reg) (s : State) : Result :=
  floatCompare .s .lt rd rs1 rs2 s

/-- fle.s rd, rs1, rs2 (R226). -/
def execFleS (rd rs1 rs2 : Reg) (s : State) : Result :=
  floatCompare .s .le rd rs1 rs2 s

/-- fclass.s rd, rs1 (R227). -/
def execFclassS (rd rs1 : Reg) (s : State) : Result :=
  floatClass .s rd rs1 s

/-- fcvt.w.s rd, rs1, rm (R228). -/
def execFcvtWS (rd rs1 : Reg) (rm : BitVec 3) (s : State) : Result :=
  floatToInt .s .s32 rd rs1 rm s

/-- fcvt.s.w rd, rs1, rm (R229). -/
def execFcvtSW (rd rs1 : Reg) (rm : BitVec 3) (s : State) : Result :=
  floatFromInt .s .s32 rd rs1 rm s

/-- fcvt.wu.s rd, rs1, rm (R230). -/
def execFcvtWuS (rd rs1 : Reg) (rm : BitVec 3) (s : State) : Result :=
  floatToInt .s .u32 rd rs1 rm s

/-- fcvt.s.wu rd, rs1, rm (R231). -/
def execFcvtSWu (rd rs1 : Reg) (rm : BitVec 3) (s : State) : Result :=
  floatFromInt .s .u32 rd rs1 rm s

/-- fcvt.l.s rd, rs1, rm (R232). -/
def execFcvtLS (rd rs1 : Reg) (rm : BitVec 3) (s : State) : Result :=
  onlyOn .rv64 s <| floatToInt .s .s64 rd rs1 rm s

/-- fcvt.s.l rd, rs1, rm (R233). -/
def execFcvtSL (rd rs1 : Reg) (rm : BitVec 3) (s : State) : Result :=
  onlyOn .rv64 s <| floatFromInt .s .s64 rd rs1 rm s

/-- fcvt.lu.s rd, rs1, rm (R234). -/
def execFcvtLuS (rd rs1 : Reg) (rm : BitVec 3) (s : State) : Result :=
  onlyOn .rv64 s <| floatToInt .s .u64 rd rs1 rm s

/-- fcvt.s.lu rd, rs1, rm (R235). -/
def execFcvtSLu (rd rs1 : Reg) (rm : BitVec 3) (s : State) : Result :=
  onlyOn .rv64 s <| floatFromInt .s .u64 rd rs1 rm s

/-- fmv.x.w rd, rs1 (R236). -/
def execFmvXW (rd rs1 : Reg) (s : State) : Result :=
  floatToX .s rd rs1 s

/-- fmv.w.x rd, rs1 (R237). -/
def execFmvWX (rd rs1 : Reg) (s : State) : Result :=
  floatFromX .s rd rs1 s

end Sys2Proof.Machine
end

