-- ==== Sys2Proof/Machine/LoadStoreMultiple.lean ====
section
/-! DEFINITION. The vendor load/store-multiple (spec/48_andes_vendor.md R380, R381; log 19). -/

namespace Sys2Proof.Machine

/-- The mode steps downwards. -/
def lsmDescending : LsmMode → Bool
  | .postDescending | .preDescending => true
  | .postAscending | .preAscending => false

/-- The mode adjusts the base before the transfer. -/
def lsmPre : LsmMode → Bool
  | .preAscending | .preDescending => true
  | .postAscending | .postDescending => false

/-- The step between two transfers: plus or minus XLEN/8. -/
def lsmStep (n : Nat) (mode : LsmMode) : BitVec n :=
  if lsmDescending mode then -BitVec.ofNat n (n / 8) else BitVec.ofNat n (n / 8)

/-- The registers T[first], ..., T[last] in table order. -/
def lsmRegs (table : Vector Reg 32) (first last : BitVec 5) : List Reg :=
  (table.toList.drop first.toNat).take (last.toNat + 1 - first.toNat)

/-- Read the registers from consecutive places, then go on; a refused request keeps what came before. -/
def lmwFrom {n : Nat} (step : BitVec n) : List Reg → BitVec n → State → (State → State) → State
  | [], _, s, go => go s
  | r :: rs, a, s, go => s.loading (n / 8) a fun v => lmwFrom step rs (a + step) (s.writeX r v) go

/-- Write the registers to consecutive places, then go on; a refused request keeps what came before. -/
def smwFrom {n : Nat} (step : BitVec n) : List Reg → BitVec n → State → (State → State) → State
  | [], _, s, go => go s
  | r :: rs, a, s, go =>
    s.storing (n / 8) a (s.readX (8 * (n / 8)) r) fun t => smwFrom step rs (a + step) t go

/-- The operands LSM_PAD and LSM_WB see, with the padding of a paired access based on x2. -/
def State.lsmRequest (s : State) (rb : Reg) (first last : BitVec 5) (mode : LsmMode) (paired : Bool) : LsmRequest :=
  let plain : LsmRequest := ⟨mode, paired, (s.readX s.bits rb).setWidth 64, first, last, 0⟩
  if rb = Reg.sp ∧ paired then { plain with pad := Config.lsmPad plain } else plain

/-- The base register takes LSM_WB; `pc <- npc`, the length being that of the word. No SP16 check: the executor is P. -/
def State.lsmFinish (s : State) (n : Nat) (rb : Reg) (request : LsmRequest) (length : LsmLength) : State :=
  s.intoXThen false rb ((Config.lsmWriteBack request).setWidth n) (s.npc n (BitVec.ofNat n length.bytes))

/-- The checks, the first address and the write-back around the transfer. REFUSED while LSM_TABLE is OPEN.
DEDUCED: the registers of the table count as named under REDUCED_ABI, and that refusal comes first (spec/10_state.md R13; log
22). -/
def lsmOp (rb : Reg) (first last : BitVec 5) (form : LsmForm) (paired : Bool) (s : State)
    (transfer : BitVec s.bits → List Reg → BitVec s.bits → State → (State → State) → State) : Result :=
  match s.params.lsmTable with
  | none => .refused .lsmOpen
  | some table =>
    naming (rb :: lsmRegs table first last) s <| .next <|
      let a := s.readX s.bits rb + (if lsmPre form.mode then lsmStep s.bits form.mode else 0)
      if rb = 0 ∨ table[last.toNat]'last.isLt = 0 ∨ last < first ∨ a.toNat % (s.bits / 8) ≠ 0 then
        s.halt .illegalInstruction
      else
        transfer (lsmStep s.bits form.mode) (lsmRegs table first last) a s fun t =>
          t.lsmFinish s.bits rb (s.lsmRequest rb first last form.mode paired) form.length

/-- lmw (R380). -/
def execLmw (rb : Reg) (first last : BitVec 5) (form : LsmForm) (paired : Bool) (s : State) : Result :=
  lsmOp rb first last form paired s lmwFrom

/-- smw (R381). -/
def execSmw (rb : Reg) (first last : BitVec 5) (form : LsmForm) (paired : Bool) (s : State) : Result :=
  lsmOp rb first last form paired s smwFrom

end Sys2Proof.Machine
end

