-- ==== Sys2Proof/Machine/MulDiv.lean ====
section
/-! DEFINITION. The multiply and divide instructions (spec/43_muldiv.md R165 to R177). -/

namespace Sys2Proof.Machine

/-! ## Arithmetic -/

/-- The upper half of an exact product (R166). -/
def highHalf (n : Nat) (product : Int) : BitVec n := BitVec.ofInt n (product >>> n)

/-- Signed quotient: all ones by zero, MIN by -1 gives MIN, else toward zero (R169). -/
def divS {w : Nat} (a b : BitVec w) : BitVec w :=
  if b = 0 then BitVec.allOnes w
  else if a = BitVec.intMin w ∧ b = BitVec.allOnes w then BitVec.intMin w
  else BitVec.ofInt w (a.toInt.tdiv b.toInt)

/-- Unsigned quotient: all ones by zero (R170). -/
def divU {w : Nat} (a b : BitVec w) : BitVec w :=
  if b = 0 then BitVec.allOnes w else BitVec.ofNat w (a.toNat / b.toNat)

/-- Signed remainder: the dividend by zero, 0 for MIN by -1, else with the dividend's sign (R171). -/
def remS {w : Nat} (a b : BitVec w) : BitVec w :=
  if b = 0 then a
  else if a = BitVec.intMin w ∧ b = BitVec.allOnes w then 0
  else BitVec.ofInt w (a.toInt - a.toInt.tdiv b.toInt * b.toInt)

/-- Unsigned remainder: the dividend by zero (R172). -/
def remU {w : Nat} (a b : BitVec w) : BitVec w :=
  if b = 0 then a else BitVec.ofNat w (a.toNat % b.toNat)

/-! ## Shapes -/

/-- `x[rd] <- f(x[rs1], x[rs2]); pc <- npc`, with no SP16 check. -/
def mulOp (rd rs1 rs2 : Reg) (s : State) (f : BitVec s.bits → BitVec s.bits → BitVec s.bits) : Result :=
  naming [rd, rs1, rs2] s <| .next <| s.intoX rd (f (s.readX s.bits rs1) (s.readX s.bits rs2))

/-- `x[rd] <- sext_32(f(x[rs1][31:0], x[rs2][31:0])); pc <- npc`, RV64 only (R173). -/
def mulWordOp (rd rs1 rs2 : Reg) (s : State) (f : BitVec 32 → BitVec 32 → BitVec 32) : Result :=
  onlyOn .rv64 s <| naming [rd, rs1, rs2] s <| .next <|
    s.intoX rd (wordResult s.bits (f (s.readX 32 rs1) (s.readX 32 rs2)))

/-! ## Instructions -/

/-- mul rd, rs1, rs2 (R165). -/
def execMul (rd rs1 rs2 : Reg) (s : State) : Result :=
  mulOp rd rs1 rs2 s fun a b => a * b

/-- mulh rd, rs1, rs2 (R166). -/
def execMulh (rd rs1 rs2 : Reg) (s : State) : Result :=
  mulOp rd rs1 rs2 s fun a b => highHalf s.bits (a.toInt * b.toInt)

/-- mulhsu rd, rs1, rs2 (R167). -/
def execMulhsu (rd rs1 rs2 : Reg) (s : State) : Result :=
  mulOp rd rs1 rs2 s fun a b => highHalf s.bits (a.toInt * b.toNat)

/-- mulhu rd, rs1, rs2 (R168). -/
def execMulhu (rd rs1 rs2 : Reg) (s : State) : Result :=
  mulOp rd rs1 rs2 s fun a b => highHalf s.bits (a.toNat * b.toNat)

/-- div rd, rs1, rs2 (R169). -/
def execDiv (rd rs1 rs2 : Reg) (s : State) : Result :=
  mulOp rd rs1 rs2 s fun a b => divS a b

/-- divu rd, rs1, rs2 (R170). -/
def execDivu (rd rs1 rs2 : Reg) (s : State) : Result :=
  mulOp rd rs1 rs2 s fun a b => divU a b

/-- rem rd, rs1, rs2 (R171). -/
def execRem (rd rs1 rs2 : Reg) (s : State) : Result :=
  mulOp rd rs1 rs2 s fun a b => remS a b

/-- remu rd, rs1, rs2 (R172). -/
def execRemu (rd rs1 rs2 : Reg) (s : State) : Result :=
  mulOp rd rs1 rs2 s fun a b => remU a b

/-- mulw rd, rs1, rs2 (R173). -/
def execMulw (rd rs1 rs2 : Reg) (s : State) : Result :=
  mulWordOp rd rs1 rs2 s fun a b => a * b

/-- divw rd, rs1, rs2 (R174). -/
def execDivw (rd rs1 rs2 : Reg) (s : State) : Result :=
  mulWordOp rd rs1 rs2 s fun a b => divS a b

/-- divuw rd, rs1, rs2 (R175). -/
def execDivuw (rd rs1 rs2 : Reg) (s : State) : Result :=
  mulWordOp rd rs1 rs2 s fun a b => divU a b

/-- remw rd, rs1, rs2 (R176). -/
def execRemw (rd rs1 rs2 : Reg) (s : State) : Result :=
  mulWordOp rd rs1 rs2 s fun a b => remS a b

/-- remuw rd, rs1, rs2 (R177). -/
def execRemuw (rd rs1 rs2 : Reg) (s : State) : Result :=
  mulWordOp rd rs1 rs2 s fun a b => remU a b

end Sys2Proof.Machine
end

