-- ==== Sys2Proof/Machine/Packed.lean ====
section
/-! DEFINITION. The packed-SIMD instructions (spec/47_packed_simd.md R306 to R375). Lanes are read before any is written
(spec/40_helpers.md R63): the whole result is one value. -/

namespace Sys2Proof.Machine

/-! ## Shapes -/

/-- Every lane i of x[rd] of width w takes `(f i).1`, OV is raised where some `(f i).2` holds; `pc <- npc` (R306). -/
def packed (w : Nat) (names : List Reg) (rd : Reg) (s : State) (f : Nat → BitVec w × Bool) : Result :=
  naming names s <| .next <|
    (s.raiseOv (anyLane (fun i => (f i).2) (s.bits / w))).intoX rd
      (ofLanes s.bits w (fun i => (f i).1) (s.bits / w))

/-- Lane by lane: f of the lanes of x[rs1] and x[rs2]. -/
def lanes2 (w : Nat) (rd rs1 rs2 : Reg) (s : State) (f : BitVec w → BitVec w → BitVec w × Bool) : Result :=
  packed w [rd, rs1, rs2] rd s fun i =>
    f (lane w (s.readX s.bits rs1) i) (lane w (s.readX s.bits rs2) i)

/-- Crossed: the upper lane of each pair takes `hi` of its own lane of x[rs1] and the lower lane of x[rs2], the lower lane
takes `lo` of its own lane of x[rs1] and the upper lane of x[rs2] (R326, R361). -/
def lanesX (w : Nat) (rd rs1 rs2 : Reg) (s : State) (hi lo : BitVec w → BitVec w → BitVec w × Bool) : Result :=
  packed w [rd, rs1, rs2] rd s fun i =>
    (if i % 2 = 1 then hi else lo) (lane w (s.readX s.bits rs1) i) (lane w (s.readX s.bits rs2) (crossLane i))

/-- 16-bit lanes of x[rs1] and the amount x[rs2][3:0] (R336). -/
def laneShift (rd rs1 rs2 : Reg) (s : State) (f : BitVec 16 → Nat → BitVec 16 × Bool) : Result :=
  packed 16 [rd, rs1, rs2] rd s fun i => f (lane 16 (s.readX s.bits rs1) i) (s.readX 4 rs2).toNat

/-- Lanes of x[rs1] alone (R342, R372, R374). -/
def lanes1 (w : Nat) (rd rs1 : Reg) (s : State) (f : BitVec w → BitVec w × Bool) : Result :=
  packed w [rd, rs1] rd s fun i => f (lane w (s.readX s.bits rs1) i)

/-! ## Lane operations -/

/-- The sum or difference of two lanes, wrapped. -/
def addW {w : Nat} (a b : BitVec w) : BitVec w × Bool := wrapped (a + b)
/-- `(a - b)[w-1:0]`. -/
def subW {w : Nat} (a b : BitVec w) : BitVec w × Bool := wrapped (a - b)
/-- `((sint(a) + sint(b)) >>s 1)`. -/
def addHalfS {w : Nat} (a b : BitVec w) : BitVec w × Bool := wrapped (BitVec.ofInt w ((a.toInt + b.toInt) >>> 1))
/-- `((sint(a) - sint(b)) >>s 1)`. -/
def subHalfS {w : Nat} (a b : BitVec w) : BitVec w × Bool := wrapped (BitVec.ofInt w ((a.toInt - b.toInt) >>> 1))
/-- `((uint(a) + uint(b)) >> 1)`. -/
def addHalfU {w : Nat} (a b : BitVec w) : BitVec w × Bool := wrapped (BitVec.ofNat w ((a.toNat + b.toNat) >>> 1))
/-- `((uint(a) - uint(b)) >>s 1)`. -/
def subHalfU {w : Nat} (a b : BitVec w) : BitVec w × Bool :=
  wrapped (BitVec.ofInt w (((a.toNat : Int) - (b.toNat : Int)) >>> 1))
/-- `SatS(sint(a) + sint(b), w - 1)`. -/
def addSatS {w : Nat} (a b : BitVec w) : BitVec w × Bool := satS w (a.toInt + b.toInt) (w - 1)
/-- `SatS(sint(a) - sint(b), w - 1)`. -/
def subSatS {w : Nat} (a b : BitVec w) : BitVec w × Bool := satS w (a.toInt - b.toInt) (w - 1)
/-- `SatU(uint(a) + uint(b), w)`. -/
def addSatU {w : Nat} (a b : BitVec w) : BitVec w × Bool := satU w ((a.toNat : Int) + (b.toNat : Int)) w
/-- `SatU(uint(a) - uint(b), w)`. -/
def subSatU {w : Nat} (a b : BitVec w) : BitVec w × Bool := satU w ((a.toNat : Int) - (b.toNat : Int)) w
/-- All ones or zero (R350). -/
def maskOf {w : Nat} (b : Bool) : BitVec w × Bool := wrapped (if b then BitVec.allOnes w else 0)
/-- `SatS(sint(a) * 2^sa, 15)` (R341). -/
def shlSat (a : BitVec 16) (k : Nat) : BitVec 16 × Bool := satS 16 (a.toInt * 2 ^ k) 15
/-- The two-way shift of R348 and R349: left saturating for a nonnegative amount, else right by at most 15. -/
def shiftBoth (amount : Int) (right : BitVec 16 → Nat → BitVec 16) (a : BitVec 16) : BitVec 16 × Bool :=
  if amount ≥ 0 then shlSat a amount.toNat else wrapped (right a (min (-amount) 15).toNat)
/-- `SatS(|sint(a)|, w - 1)` (R374). -/
def absSat {w : Nat} (a : BitVec w) : BitVec w × Bool := satS w (a.toInt.natAbs : Int) (w - 1)

/-! ## Instructions -/

/-- add16 rd, rs1, rs2 (R306). -/
def execAdd16 (rd rs1 rs2 : Reg) (s : State) : Result :=
  lanes2 16 rd rs1 rs2 s addW

/-- radd16 rd, rs1, rs2 (R307). -/
def execRadd16 (rd rs1 rs2 : Reg) (s : State) : Result :=
  lanes2 16 rd rs1 rs2 s addHalfS

/-- uradd16 rd, rs1, rs2 (R308). -/
def execUradd16 (rd rs1 rs2 : Reg) (s : State) : Result :=
  lanes2 16 rd rs1 rs2 s addHalfU

/-- kadd16 rd, rs1, rs2 (R309). -/
def execKadd16 (rd rs1 rs2 : Reg) (s : State) : Result :=
  lanes2 16 rd rs1 rs2 s addSatS

/-- ukadd16 rd, rs1, rs2 (R310). -/
def execUkadd16 (rd rs1 rs2 : Reg) (s : State) : Result :=
  lanes2 16 rd rs1 rs2 s addSatU

/-- sub16 rd, rs1, rs2 (R311). -/
def execSub16 (rd rs1 rs2 : Reg) (s : State) : Result :=
  lanes2 16 rd rs1 rs2 s subW

/-- rsub16 rd, rs1, rs2 (R312). -/
def execRsub16 (rd rs1 rs2 : Reg) (s : State) : Result :=
  lanes2 16 rd rs1 rs2 s subHalfS

/-- ursub16 rd, rs1, rs2 (R313). -/
def execUrsub16 (rd rs1 rs2 : Reg) (s : State) : Result :=
  lanes2 16 rd rs1 rs2 s subHalfU

/-- ksub16 rd, rs1, rs2 (R314). -/
def execKsub16 (rd rs1 rs2 : Reg) (s : State) : Result :=
  lanes2 16 rd rs1 rs2 s subSatS

/-- uksub16 rd, rs1, rs2 (R315). -/
def execUksub16 (rd rs1 rs2 : Reg) (s : State) : Result :=
  lanes2 16 rd rs1 rs2 s subSatU

/-- add8 rd, rs1, rs2 (R316). -/
def execAdd8 (rd rs1 rs2 : Reg) (s : State) : Result :=
  lanes2 8 rd rs1 rs2 s addW

/-- radd8 rd, rs1, rs2 (R317). -/
def execRadd8 (rd rs1 rs2 : Reg) (s : State) : Result :=
  lanes2 8 rd rs1 rs2 s addHalfS

/-- uradd8 rd, rs1, rs2 (R318). -/
def execUradd8 (rd rs1 rs2 : Reg) (s : State) : Result :=
  lanes2 8 rd rs1 rs2 s addHalfU

/-- kadd8 rd, rs1, rs2 (R319). -/
def execKadd8 (rd rs1 rs2 : Reg) (s : State) : Result :=
  lanes2 8 rd rs1 rs2 s addSatS

/-- ukadd8 rd, rs1, rs2 (R320). -/
def execUkadd8 (rd rs1 rs2 : Reg) (s : State) : Result :=
  lanes2 8 rd rs1 rs2 s addSatU

/-- sub8 rd, rs1, rs2 (R321). -/
def execSub8 (rd rs1 rs2 : Reg) (s : State) : Result :=
  lanes2 8 rd rs1 rs2 s subW

/-- rsub8 rd, rs1, rs2 (R322). -/
def execRsub8 (rd rs1 rs2 : Reg) (s : State) : Result :=
  lanes2 8 rd rs1 rs2 s subHalfS

/-- ursub8 rd, rs1, rs2 (R323). -/
def execUrsub8 (rd rs1 rs2 : Reg) (s : State) : Result :=
  lanes2 8 rd rs1 rs2 s subHalfU

/-- ksub8 rd, rs1, rs2 (R324). -/
def execKsub8 (rd rs1 rs2 : Reg) (s : State) : Result :=
  lanes2 8 rd rs1 rs2 s subSatS

/-- uksub8 rd, rs1, rs2 (R325). -/
def execUksub8 (rd rs1 rs2 : Reg) (s : State) : Result :=
  lanes2 8 rd rs1 rs2 s subSatU

/-- cras16 rd, rs1, rs2 (R326). -/
def execCras16 (rd rs1 rs2 : Reg) (s : State) : Result :=
  lanesX 16 rd rs1 rs2 s addW subW

/-- rcras16 rd, rs1, rs2 (R327). -/
def execRcras16 (rd rs1 rs2 : Reg) (s : State) : Result :=
  lanesX 16 rd rs1 rs2 s addHalfS subHalfS

/-- urcras16 rd, rs1, rs2 (R328). -/
def execUrcras16 (rd rs1 rs2 : Reg) (s : State) : Result :=
  lanesX 16 rd rs1 rs2 s addHalfU subHalfU

/-- kcras16 rd, rs1, rs2 (R329). -/
def execKcras16 (rd rs1 rs2 : Reg) (s : State) : Result :=
  lanesX 16 rd rs1 rs2 s addSatS subSatS

/-- ukcras16 rd, rs1, rs2 (R330). -/
def execUkcras16 (rd rs1 rs2 : Reg) (s : State) : Result :=
  lanesX 16 rd rs1 rs2 s addSatU subSatU

/-- crsa16 rd, rs1, rs2 (R331). -/
def execCrsa16 (rd rs1 rs2 : Reg) (s : State) : Result :=
  lanesX 16 rd rs1 rs2 s subW addW

/-- rcrsa16 rd, rs1, rs2 (R332). -/
def execRcrsa16 (rd rs1 rs2 : Reg) (s : State) : Result :=
  lanesX 16 rd rs1 rs2 s subHalfS addHalfS

/-- urcrsa16 rd, rs1, rs2 (R333). -/
def execUrcrsa16 (rd rs1 rs2 : Reg) (s : State) : Result :=
  lanesX 16 rd rs1 rs2 s subHalfU addHalfU

/-- kcrsa16 rd, rs1, rs2 (R334). -/
def execKcrsa16 (rd rs1 rs2 : Reg) (s : State) : Result :=
  lanesX 16 rd rs1 rs2 s subSatS addSatS

/-- ukcrsa16 rd, rs1, rs2 (R335). -/
def execUkcrsa16 (rd rs1 rs2 : Reg) (s : State) : Result :=
  lanesX 16 rd rs1 rs2 s subSatU addSatU

/-- sra16 rd, rs1, rs2 (R336). -/
def execSra16 (rd rs1 rs2 : Reg) (s : State) : Result :=
  laneShift rd rs1 rs2 s fun a k => wrapped (a.sshiftRight k)

/-- sra16.u rd, rs1, rs2 (R337). -/
def execSra16U (rd rs1 rs2 : Reg) (s : State) : Result :=
  laneShift rd rs1 rs2 s fun a k => wrapped (rShrS a k)

/-- srl16 rd, rs1, rs2 (R338). -/
def execSrl16 (rd rs1 rs2 : Reg) (s : State) : Result :=
  laneShift rd rs1 rs2 s fun a k => wrapped (a >>> k)

/-- srl16.u rd, rs1, rs2 (R339). -/
def execSrl16U (rd rs1 rs2 : Reg) (s : State) : Result :=
  laneShift rd rs1 rs2 s fun a k => wrapped (rShrU a k)

/-- sll16 rd, rs1, rs2 (R340). -/
def execSll16 (rd rs1 rs2 : Reg) (s : State) : Result :=
  laneShift rd rs1 rs2 s fun a k => wrapped (a <<< k)

/-- ksll16 rd, rs1, rs2 (R341). -/
def execKsll16 (rd rs1 rs2 : Reg) (s : State) : Result :=
  laneShift rd rs1 rs2 s fun a k => shlSat a k

/-- srai16 rd, rs1, imm4u (R342). -/
def execSrai16 (rd rs1 : Reg) (imm4u : BitVec 4) (s : State) : Result :=
  lanes1 16 rd rs1 s fun a => wrapped (a.sshiftRight imm4u.toNat)

/-- srai16.u rd, rs1, imm4u (R343). -/
def execSrai16U (rd rs1 : Reg) (imm4u : BitVec 4) (s : State) : Result :=
  lanes1 16 rd rs1 s fun a => wrapped (rShrS a imm4u.toNat)

/-- srli16 rd, rs1, imm4u (R344). -/
def execSrli16 (rd rs1 : Reg) (imm4u : BitVec 4) (s : State) : Result :=
  lanes1 16 rd rs1 s fun a => wrapped (a >>> imm4u.toNat)

/-- srli16.u rd, rs1, imm4u (R345). -/
def execSrli16U (rd rs1 : Reg) (imm4u : BitVec 4) (s : State) : Result :=
  lanes1 16 rd rs1 s fun a => wrapped (rShrU a imm4u.toNat)

/-- slli16 rd, rs1, imm4u (R346). -/
def execSlli16 (rd rs1 : Reg) (imm4u : BitVec 4) (s : State) : Result :=
  lanes1 16 rd rs1 s fun a => wrapped (a <<< imm4u.toNat)

/-- kslli16 rd, rs1, imm4u (R347). -/
def execKslli16 (rd rs1 : Reg) (imm4u : BitVec 4) (s : State) : Result :=
  lanes1 16 rd rs1 s fun a => shlSat a imm4u.toNat

/-- kslra16 rd, rs1, rs2 (R348). -/
def execKslra16 (rd rs1 rs2 : Reg) (s : State) : Result :=
  packed 16 [rd, rs1, rs2] rd s fun i =>
    shiftBoth (s.readX 5 rs2).toInt (fun a k => a.sshiftRight k) (lane 16 (s.readX s.bits rs1) i)

/-- kslra16.u rd, rs1, rs2 (R349). -/
def execKslra16U (rd rs1 rs2 : Reg) (s : State) : Result :=
  packed 16 [rd, rs1, rs2] rd s fun i =>
    shiftBoth (s.readX 5 rs2).toInt rShrS (lane 16 (s.readX s.bits rs1) i)

/-- cmpeq16 rd, rs1, rs2 (R350). -/
def execCmpeq16 (rd rs1 rs2 : Reg) (s : State) : Result :=
  lanes2 16 rd rs1 rs2 s fun a b => maskOf (a == b)

/-- scmplt16 rd, rs1, rs2 (R351). -/
def execScmplt16 (rd rs1 rs2 : Reg) (s : State) : Result :=
  lanes2 16 rd rs1 rs2 s fun a b => maskOf (a.slt b)

/-- scmple16 rd, rs1, rs2 (R352). -/
def execScmple16 (rd rs1 rs2 : Reg) (s : State) : Result :=
  lanes2 16 rd rs1 rs2 s fun a b => maskOf (a.sle b)

/-- ucmplt16 rd, rs1, rs2 (R353). -/
def execUcmplt16 (rd rs1 rs2 : Reg) (s : State) : Result :=
  lanes2 16 rd rs1 rs2 s fun a b => maskOf (a.ult b)

/-- ucmple16 rd, rs1, rs2 (R354). -/
def execUcmple16 (rd rs1 rs2 : Reg) (s : State) : Result :=
  lanes2 16 rd rs1 rs2 s fun a b => maskOf (a.ule b)

/-- cmpeq8 rd, rs1, rs2 (R355). -/
def execCmpeq8 (rd rs1 rs2 : Reg) (s : State) : Result :=
  lanes2 8 rd rs1 rs2 s fun a b => maskOf (a == b)

/-- scmplt8 rd, rs1, rs2 (R356). -/
def execScmplt8 (rd rs1 rs2 : Reg) (s : State) : Result :=
  lanes2 8 rd rs1 rs2 s fun a b => maskOf (a.slt b)

/-- scmple8 rd, rs1, rs2 (R357). -/
def execScmple8 (rd rs1 rs2 : Reg) (s : State) : Result :=
  lanes2 8 rd rs1 rs2 s fun a b => maskOf (a.sle b)

/-- ucmplt8 rd, rs1, rs2 (R358). -/
def execUcmplt8 (rd rs1 rs2 : Reg) (s : State) : Result :=
  lanes2 8 rd rs1 rs2 s fun a b => maskOf (a.ult b)

/-- ucmple8 rd, rs1, rs2 (R359). -/
def execUcmple8 (rd rs1 rs2 : Reg) (s : State) : Result :=
  lanes2 8 rd rs1 rs2 s fun a b => maskOf (a.ule b)

/-- khm16 rd, rs1, rs2 (R360). -/
def execKhm16 (rd rs1 rs2 : Reg) (s : State) : Result :=
  lanes2 16 rd rs1 rs2 s khm

/-- khmx16 rd, rs1, rs2 (R361). -/
def execKhmx16 (rd rs1 rs2 : Reg) (s : State) : Result :=
  lanesX 16 rd rs1 rs2 s khm khm

/-- khm8 rd, rs1, rs2 (R362). -/
def execKhm8 (rd rs1 rs2 : Reg) (s : State) : Result :=
  lanes2 8 rd rs1 rs2 s khm

/-- khmx8 rd, rs1, rs2 (R363). -/
def execKhmx8 (rd rs1 rs2 : Reg) (s : State) : Result :=
  lanesX 8 rd rs1 rs2 s khm khm

/-- smin16 rd, rs1, rs2 (R364). -/
def execSmin16 (rd rs1 rs2 : Reg) (s : State) : Result :=
  lanes2 16 rd rs1 rs2 s fun a b => wrapped (if a.slt b then a else b)

/-- umin16 rd, rs1, rs2 (R365). -/
def execUmin16 (rd rs1 rs2 : Reg) (s : State) : Result :=
  lanes2 16 rd rs1 rs2 s fun a b => wrapped (if a.ult b then a else b)

/-- smax16 rd, rs1, rs2 (R366). -/
def execSmax16 (rd rs1 rs2 : Reg) (s : State) : Result :=
  lanes2 16 rd rs1 rs2 s fun a b => wrapped (if b.slt a then a else b)

/-- umax16 rd, rs1, rs2 (R367). -/
def execUmax16 (rd rs1 rs2 : Reg) (s : State) : Result :=
  lanes2 16 rd rs1 rs2 s fun a b => wrapped (if b.ult a then a else b)

/-- smin8 rd, rs1, rs2 (R368). -/
def execSmin8 (rd rs1 rs2 : Reg) (s : State) : Result :=
  lanes2 8 rd rs1 rs2 s fun a b => wrapped (if a.slt b then a else b)

/-- umin8 rd, rs1, rs2 (R369). -/
def execUmin8 (rd rs1 rs2 : Reg) (s : State) : Result :=
  lanes2 8 rd rs1 rs2 s fun a b => wrapped (if a.ult b then a else b)

/-- smax8 rd, rs1, rs2 (R370). -/
def execSmax8 (rd rs1 rs2 : Reg) (s : State) : Result :=
  lanes2 8 rd rs1 rs2 s fun a b => wrapped (if b.slt a then a else b)

/-- umax8 rd, rs1, rs2 (R371). -/
def execUmax8 (rd rs1 rs2 : Reg) (s : State) : Result :=
  lanes2 8 rd rs1 rs2 s fun a b => wrapped (if b.ult a then a else b)

/-- sclip16 rd, rs1, imm4u (R372). -/
def execSclip16 (rd rs1 : Reg) (imm4u : BitVec 4) (s : State) : Result :=
  lanes1 16 rd rs1 s fun a => satS 16 a.toInt imm4u.toNat

/-- uclip16 rd, rs1, imm4u (R373). -/
def execUclip16 (rd rs1 : Reg) (imm4u : BitVec 4) (s : State) : Result :=
  lanes1 16 rd rs1 s fun a => satU 16 a.toInt imm4u.toNat

/-- kabs16 rd, rs1 (R374). -/
def execKabs16 (rd rs1 : Reg) (s : State) : Result :=
  lanes1 16 rd rs1 s absSat

/-- kabs8 rd, rs1 (R375). -/
def execKabs8 (rd rs1 : Reg) (s : State) : Result :=
  lanes1 8 rd rs1 s absSat

end Sys2Proof.Machine
end

