-- ==== Sys2Proof/Machine/TableExecute.lean ====
section
/-! DEFINITION. exec.it and the instructions it can run (spec/48_andes_vendor.md R376 to R379; logs 16, 17, 18, 20, 28). It
is noncomputable as the decoder is. -/

namespace Sys2Proof.Machine

noncomputable section

/-- The instruction in a table entry: a 32-bit one. A compressed instruction and exec.it are none (R379). DEDUCED:
the SP16 check follows the executor of this instruction, not that of exec.it (spec/40_helpers.md R57; log 20). -/
def runInner (i : Instr) (s : State) : Result :=
  match i with
  | .lui rd imm20 => execLui rd imm20 s
  | .auipc rd imm20 => execAuipc rd imm20 s
  | .jal rd off => execJal rd off s
  | .jalr rd rs1 imm => execJalr rd rs1 imm s
  | .beq rs1 rs2 off => execBeq rs1 rs2 off s
  | .bne rs1 rs2 off => execBne rs1 rs2 off s
  | .blt rs1 rs2 off => execBlt rs1 rs2 off s
  | .bge rs1 rs2 off => execBge rs1 rs2 off s
  | .bltu rs1 rs2 off => execBltu rs1 rs2 off s
  | .bgeu rs1 rs2 off => execBgeu rs1 rs2 off s
  | .lb rd rs1 imm => execLb rd rs1 imm s
  | .lh rd rs1 imm => execLh rd rs1 imm s
  | .lw rd rs1 imm => execLw rd rs1 imm s
  | .lbu rd rs1 imm => execLbu rd rs1 imm s
  | .lhu rd rs1 imm => execLhu rd rs1 imm s
  | .lwu rd rs1 imm => execLwu rd rs1 imm s
  | .ld rd rs1 imm => execLd rd rs1 imm s
  | .sb rs2 rs1 imm => execSb rs2 rs1 imm s
  | .sh rs2 rs1 imm => execSh rs2 rs1 imm s
  | .sw rs2 rs1 imm => execSw rs2 rs1 imm s
  | .sd rs2 rs1 imm => execSd rs2 rs1 imm s
  | .addi rd rs1 imm => execAddi rd rs1 imm s
  | .slti rd rs1 imm => execSlti rd rs1 imm s
  | .sltiu rd rs1 imm => execSltiu rd rs1 imm s
  | .xori rd rs1 imm => execXori rd rs1 imm s
  | .ori rd rs1 imm => execOri rd rs1 imm s
  | .andi rd rs1 imm => execAndi rd rs1 imm s
  | .slli rd rs1 shamt => execSlli rd rs1 shamt s
  | .srli rd rs1 shamt => execSrli rd rs1 shamt s
  | .srai rd rs1 shamt => execSrai rd rs1 shamt s
  | .add rd rs1 rs2 => execAdd rd rs1 rs2 s
  | .sub rd rs1 rs2 => execSub rd rs1 rs2 s
  | .sll rd rs1 rs2 => execSll rd rs1 rs2 s
  | .slt rd rs1 rs2 => execSlt rd rs1 rs2 s
  | .sltu rd rs1 rs2 => execSltu rd rs1 rs2 s
  | .xor rd rs1 rs2 => execXor rd rs1 rs2 s
  | .srl rd rs1 rs2 => execSrl rd rs1 rs2 s
  | .sra rd rs1 rs2 => execSra rd rs1 rs2 s
  | .or rd rs1 rs2 => execOr rd rs1 rs2 s
  | .and rd rs1 rs2 => execAnd rd rs1 rs2 s
  | .addiw rd rs1 imm => execAddiw rd rs1 imm s
  | .slliw rd rs1 shamt => execSlliw rd rs1 shamt s
  | .srliw rd rs1 shamt => execSrliw rd rs1 shamt s
  | .sraiw rd rs1 shamt => execSraiw rd rs1 shamt s
  | .addw rd rs1 rs2 => execAddw rd rs1 rs2 s
  | .subw rd rs1 rs2 => execSubw rd rs1 rs2 s
  | .sllw rd rs1 rs2 => execSllw rd rs1 rs2 s
  | .srlw rd rs1 rs2 => execSrlw rd rs1 rs2 s
  | .sraw rd rs1 rs2 => execSraw rd rs1 rs2 s
  | .fence fm pred succ rs1 rd => execFence fm pred succ rs1 rd s
  | .fenceI rd rs1 imm => execFenceI rd rs1 imm s
  | .ecall => execEcall s
  | .ebreak => execEbreak s
  | .csrrw rd csr rs1 => execCsrrw rd csr rs1 s
  | .csrrs rd csr rs1 => execCsrrs rd csr rs1 s
  | .csrrc rd csr rs1 => execCsrrc rd csr rs1 s
  | .csrrwi rd csr uimm => execCsrrwi rd csr uimm s
  | .csrrsi rd csr uimm => execCsrrsi rd csr uimm s
  | .csrrci rd csr uimm => execCsrrci rd csr uimm s
  | .cAddi4spn _ _ => .refused .tableEntry
  | .cFld _ _ _ => .refused .tableEntry
  | .cLw _ _ _ => .refused .tableEntry
  | .cFlw _ _ _ => .refused .tableEntry
  | .cLd _ _ _ => .refused .tableEntry
  | .cFsd _ _ _ => .refused .tableEntry
  | .cSw _ _ _ => .refused .tableEntry
  | .cFsw _ _ _ => .refused .tableEntry
  | .cSd _ _ _ => .refused .tableEntry
  | .cNop => .refused .tableEntry
  | .cAddi _ _ => .refused .tableEntry
  | .cJal _ => .refused .tableEntry
  | .cAddiw _ _ => .refused .tableEntry
  | .cLi _ _ => .refused .tableEntry
  | .cAddi16sp _ => .refused .tableEntry
  | .cLui _ _ => .refused .tableEntry
  | .cSrli _ _ => .refused .tableEntry
  | .cSrai _ _ => .refused .tableEntry
  | .cAndi _ _ => .refused .tableEntry
  | .cSub _ _ => .refused .tableEntry
  | .cXor _ _ => .refused .tableEntry
  | .cOr _ _ => .refused .tableEntry
  | .cAnd _ _ => .refused .tableEntry
  | .cSubw _ _ => .refused .tableEntry
  | .cAddw _ _ => .refused .tableEntry
  | .cJ _ => .refused .tableEntry
  | .cBeqz _ _ => .refused .tableEntry
  | .cBnez _ _ => .refused .tableEntry
  | .cSlli _ _ => .refused .tableEntry
  | .cFldsp _ _ => .refused .tableEntry
  | .cLwsp _ _ => .refused .tableEntry
  | .cFlwsp _ _ => .refused .tableEntry
  | .cLdsp _ _ => .refused .tableEntry
  | .cJr _ => .refused .tableEntry
  | .cMv _ _ => .refused .tableEntry
  | .cEbreak => .refused .tableEntry
  | .cJalr _ => .refused .tableEntry
  | .cAdd _ _ => .refused .tableEntry
  | .cFsdsp _ _ => .refused .tableEntry
  | .cSwsp _ _ => .refused .tableEntry
  | .cFswsp _ _ => .refused .tableEntry
  | .cSdsp _ _ => .refused .tableEntry
  | .mul rd rs1 rs2 => execMul rd rs1 rs2 s
  | .mulh rd rs1 rs2 => execMulh rd rs1 rs2 s
  | .mulhsu rd rs1 rs2 => execMulhsu rd rs1 rs2 s
  | .mulhu rd rs1 rs2 => execMulhu rd rs1 rs2 s
  | .div rd rs1 rs2 => execDiv rd rs1 rs2 s
  | .divu rd rs1 rs2 => execDivu rd rs1 rs2 s
  | .rem rd rs1 rs2 => execRem rd rs1 rs2 s
  | .remu rd rs1 rs2 => execRemu rd rs1 rs2 s
  | .mulw rd rs1 rs2 => execMulw rd rs1 rs2 s
  | .divw rd rs1 rs2 => execDivw rd rs1 rs2 s
  | .divuw rd rs1 rs2 => execDivuw rd rs1 rs2 s
  | .remw rd rs1 rs2 => execRemw rd rs1 rs2 s
  | .remuw rd rs1 rs2 => execRemuw rd rs1 rs2 s
  | .lrW rd rs1 aq rl => execLrW rd rs1 aq rl s
  | .scW rd rs2 rs1 aq rl => execScW rd rs2 rs1 aq rl s
  | .amoswapW rd rs2 rs1 aq rl => execAmoswapW rd rs2 rs1 aq rl s
  | .amoaddW rd rs2 rs1 aq rl => execAmoaddW rd rs2 rs1 aq rl s
  | .amoxorW rd rs2 rs1 aq rl => execAmoxorW rd rs2 rs1 aq rl s
  | .amoandW rd rs2 rs1 aq rl => execAmoandW rd rs2 rs1 aq rl s
  | .amoorW rd rs2 rs1 aq rl => execAmoorW rd rs2 rs1 aq rl s
  | .amominW rd rs2 rs1 aq rl => execAmominW rd rs2 rs1 aq rl s
  | .amomaxW rd rs2 rs1 aq rl => execAmomaxW rd rs2 rs1 aq rl s
  | .amominuW rd rs2 rs1 aq rl => execAmominuW rd rs2 rs1 aq rl s
  | .amomaxuW rd rs2 rs1 aq rl => execAmomaxuW rd rs2 rs1 aq rl s
  | .lrD rd rs1 aq rl => execLrD rd rs1 aq rl s
  | .scD rd rs2 rs1 aq rl => execScD rd rs2 rs1 aq rl s
  | .amoswapD rd rs2 rs1 aq rl => execAmoswapD rd rs2 rs1 aq rl s
  | .amoaddD rd rs2 rs1 aq rl => execAmoaddD rd rs2 rs1 aq rl s
  | .amoxorD rd rs2 rs1 aq rl => execAmoxorD rd rs2 rs1 aq rl s
  | .amoandD rd rs2 rs1 aq rl => execAmoandD rd rs2 rs1 aq rl s
  | .amoorD rd rs2 rs1 aq rl => execAmoorD rd rs2 rs1 aq rl s
  | .amominD rd rs2 rs1 aq rl => execAmominD rd rs2 rs1 aq rl s
  | .amomaxD rd rs2 rs1 aq rl => execAmomaxD rd rs2 rs1 aq rl s
  | .amominuD rd rs2 rs1 aq rl => execAmominuD rd rs2 rs1 aq rl s
  | .amomaxuD rd rs2 rs1 aq rl => execAmomaxuD rd rs2 rs1 aq rl s
  | .fcvtSD rd rs1 rm => execFcvtSD rd rs1 rm s
  | .fcvtDS rd rs1 rm => execFcvtDS rd rs1 rm s
  | .fcvtSH rd rs1 rm => execFcvtSH rd rs1 rm s
  | .fcvtHS rd rs1 rm => execFcvtHS rd rs1 rm s
  | .fcvtDH rd rs1 rm => execFcvtDH rd rs1 rm s
  | .fcvtHD rd rs1 rm => execFcvtHD rd rs1 rm s
  | .flw rd rs1 imm => execFlw rd rs1 imm s
  | .fsw rs2 rs1 imm => execFsw rs2 rs1 imm s
  | .fmaddS rd rs1 rs2 rs3 rm => execFmaddS rd rs1 rs2 rs3 rm s
  | .fmsubS rd rs1 rs2 rs3 rm => execFmsubS rd rs1 rs2 rs3 rm s
  | .fnmsubS rd rs1 rs2 rs3 rm => execFnmsubS rd rs1 rs2 rs3 rm s
  | .fnmaddS rd rs1 rs2 rs3 rm => execFnmaddS rd rs1 rs2 rs3 rm s
  | .faddS rd rs1 rs2 rm => execFaddS rd rs1 rs2 rm s
  | .fsubS rd rs1 rs2 rm => execFsubS rd rs1 rs2 rm s
  | .fmulS rd rs1 rs2 rm => execFmulS rd rs1 rs2 rm s
  | .fdivS rd rs1 rs2 rm => execFdivS rd rs1 rs2 rm s
  | .fsqrtS rd rs1 rm => execFsqrtS rd rs1 rm s
  | .fsgnjS rd rs1 rs2 => execFsgnjS rd rs1 rs2 s
  | .fsgnjnS rd rs1 rs2 => execFsgnjnS rd rs1 rs2 s
  | .fsgnjxS rd rs1 rs2 => execFsgnjxS rd rs1 rs2 s
  | .fminS rd rs1 rs2 => execFminS rd rs1 rs2 s
  | .fmaxS rd rs1 rs2 => execFmaxS rd rs1 rs2 s
  | .feqS rd rs1 rs2 => execFeqS rd rs1 rs2 s
  | .fltS rd rs1 rs2 => execFltS rd rs1 rs2 s
  | .fleS rd rs1 rs2 => execFleS rd rs1 rs2 s
  | .fclassS rd rs1 => execFclassS rd rs1 s
  | .fcvtWS rd rs1 rm => execFcvtWS rd rs1 rm s
  | .fcvtSW rd rs1 rm => execFcvtSW rd rs1 rm s
  | .fcvtWuS rd rs1 rm => execFcvtWuS rd rs1 rm s
  | .fcvtSWu rd rs1 rm => execFcvtSWu rd rs1 rm s
  | .fcvtLS rd rs1 rm => execFcvtLS rd rs1 rm s
  | .fcvtSL rd rs1 rm => execFcvtSL rd rs1 rm s
  | .fcvtLuS rd rs1 rm => execFcvtLuS rd rs1 rm s
  | .fcvtSLu rd rs1 rm => execFcvtSLu rd rs1 rm s
  | .fmvXW rd rs1 => execFmvXW rd rs1 s
  | .fmvWX rd rs1 => execFmvWX rd rs1 s
  | .fld rd rs1 imm => execFld rd rs1 imm s
  | .fsd rs2 rs1 imm => execFsd rs2 rs1 imm s
  | .fmaddD rd rs1 rs2 rs3 rm => execFmaddD rd rs1 rs2 rs3 rm s
  | .fmsubD rd rs1 rs2 rs3 rm => execFmsubD rd rs1 rs2 rs3 rm s
  | .fnmsubD rd rs1 rs2 rs3 rm => execFnmsubD rd rs1 rs2 rs3 rm s
  | .fnmaddD rd rs1 rs2 rs3 rm => execFnmaddD rd rs1 rs2 rs3 rm s
  | .faddD rd rs1 rs2 rm => execFaddD rd rs1 rs2 rm s
  | .fsubD rd rs1 rs2 rm => execFsubD rd rs1 rs2 rm s
  | .fmulD rd rs1 rs2 rm => execFmulD rd rs1 rs2 rm s
  | .fdivD rd rs1 rs2 rm => execFdivD rd rs1 rs2 rm s
  | .fsqrtD rd rs1 rm => execFsqrtD rd rs1 rm s
  | .fsgnjD rd rs1 rs2 => execFsgnjD rd rs1 rs2 s
  | .fsgnjnD rd rs1 rs2 => execFsgnjnD rd rs1 rs2 s
  | .fsgnjxD rd rs1 rs2 => execFsgnjxD rd rs1 rs2 s
  | .fminD rd rs1 rs2 => execFminD rd rs1 rs2 s
  | .fmaxD rd rs1 rs2 => execFmaxD rd rs1 rs2 s
  | .feqD rd rs1 rs2 => execFeqD rd rs1 rs2 s
  | .fltD rd rs1 rs2 => execFltD rd rs1 rs2 s
  | .fleD rd rs1 rs2 => execFleD rd rs1 rs2 s
  | .fclassD rd rs1 => execFclassD rd rs1 s
  | .fcvtWD rd rs1 rm => execFcvtWD rd rs1 rm s
  | .fcvtDW rd rs1 rm => execFcvtDW rd rs1 rm s
  | .fcvtWuD rd rs1 rm => execFcvtWuD rd rs1 rm s
  | .fcvtDWu rd rs1 rm => execFcvtDWu rd rs1 rm s
  | .fcvtLD rd rs1 rm => execFcvtLD rd rs1 rm s
  | .fcvtDL rd rs1 rm => execFcvtDL rd rs1 rm s
  | .fcvtLuD rd rs1 rm => execFcvtLuD rd rs1 rm s
  | .fcvtDLu rd rs1 rm => execFcvtDLu rd rs1 rm s
  | .fmvXD rd rs1 => execFmvXD rd rs1 s
  | .fmvDX rd rs1 => execFmvDX rd rs1 s
  | .flh rd rs1 imm => execFlh rd rs1 imm s
  | .fsh rs2 rs1 imm => execFsh rs2 rs1 imm s
  | .fmaddH rd rs1 rs2 rs3 rm => execFmaddH rd rs1 rs2 rs3 rm s
  | .fmsubH rd rs1 rs2 rs3 rm => execFmsubH rd rs1 rs2 rs3 rm s
  | .fnmsubH rd rs1 rs2 rs3 rm => execFnmsubH rd rs1 rs2 rs3 rm s
  | .fnmaddH rd rs1 rs2 rs3 rm => execFnmaddH rd rs1 rs2 rs3 rm s
  | .faddH rd rs1 rs2 rm => execFaddH rd rs1 rs2 rm s
  | .fsubH rd rs1 rs2 rm => execFsubH rd rs1 rs2 rm s
  | .fmulH rd rs1 rs2 rm => execFmulH rd rs1 rs2 rm s
  | .fdivH rd rs1 rs2 rm => execFdivH rd rs1 rs2 rm s
  | .fsqrtH rd rs1 rm => execFsqrtH rd rs1 rm s
  | .fsgnjH rd rs1 rs2 => execFsgnjH rd rs1 rs2 s
  | .fsgnjnH rd rs1 rs2 => execFsgnjnH rd rs1 rs2 s
  | .fsgnjxH rd rs1 rs2 => execFsgnjxH rd rs1 rs2 s
  | .fminH rd rs1 rs2 => execFminH rd rs1 rs2 s
  | .fmaxH rd rs1 rs2 => execFmaxH rd rs1 rs2 s
  | .feqH rd rs1 rs2 => execFeqH rd rs1 rs2 s
  | .fltH rd rs1 rs2 => execFltH rd rs1 rs2 s
  | .fleH rd rs1 rs2 => execFleH rd rs1 rs2 s
  | .fclassH rd rs1 => execFclassH rd rs1 s
  | .fcvtWH rd rs1 rm => execFcvtWH rd rs1 rm s
  | .fcvtHW rd rs1 rm => execFcvtHW rd rs1 rm s
  | .fcvtWuH rd rs1 rm => execFcvtWuH rd rs1 rm s
  | .fcvtHWu rd rs1 rm => execFcvtHWu rd rs1 rm s
  | .fcvtLH rd rs1 rm => execFcvtLH rd rs1 rm s
  | .fcvtHL rd rs1 rm => execFcvtHL rd rs1 rm s
  | .fcvtLuH rd rs1 rm => execFcvtLuH rd rs1 rm s
  | .fcvtHLu rd rs1 rm => execFcvtHLu rd rs1 rm s
  | .fmvXH rd rs1 => execFmvXH rd rs1 s
  | .fmvHX rd rs1 => execFmvHX rd rs1 s
  | .fcvtSBf16 rd rs1 => execFcvtSBf16 rd rs1 s
  | .fcvtBf16S rd rs1 => execFcvtBf16S rd rs1 s
  | .add16 rd rs1 rs2 => execAdd16 rd rs1 rs2 s
  | .radd16 rd rs1 rs2 => execRadd16 rd rs1 rs2 s
  | .uradd16 rd rs1 rs2 => execUradd16 rd rs1 rs2 s
  | .kadd16 rd rs1 rs2 => execKadd16 rd rs1 rs2 s
  | .ukadd16 rd rs1 rs2 => execUkadd16 rd rs1 rs2 s
  | .sub16 rd rs1 rs2 => execSub16 rd rs1 rs2 s
  | .rsub16 rd rs1 rs2 => execRsub16 rd rs1 rs2 s
  | .ursub16 rd rs1 rs2 => execUrsub16 rd rs1 rs2 s
  | .ksub16 rd rs1 rs2 => execKsub16 rd rs1 rs2 s
  | .uksub16 rd rs1 rs2 => execUksub16 rd rs1 rs2 s
  | .add8 rd rs1 rs2 => execAdd8 rd rs1 rs2 s
  | .radd8 rd rs1 rs2 => execRadd8 rd rs1 rs2 s
  | .uradd8 rd rs1 rs2 => execUradd8 rd rs1 rs2 s
  | .kadd8 rd rs1 rs2 => execKadd8 rd rs1 rs2 s
  | .ukadd8 rd rs1 rs2 => execUkadd8 rd rs1 rs2 s
  | .sub8 rd rs1 rs2 => execSub8 rd rs1 rs2 s
  | .rsub8 rd rs1 rs2 => execRsub8 rd rs1 rs2 s
  | .ursub8 rd rs1 rs2 => execUrsub8 rd rs1 rs2 s
  | .ksub8 rd rs1 rs2 => execKsub8 rd rs1 rs2 s
  | .uksub8 rd rs1 rs2 => execUksub8 rd rs1 rs2 s
  | .cras16 rd rs1 rs2 => execCras16 rd rs1 rs2 s
  | .rcras16 rd rs1 rs2 => execRcras16 rd rs1 rs2 s
  | .urcras16 rd rs1 rs2 => execUrcras16 rd rs1 rs2 s
  | .kcras16 rd rs1 rs2 => execKcras16 rd rs1 rs2 s
  | .ukcras16 rd rs1 rs2 => execUkcras16 rd rs1 rs2 s
  | .crsa16 rd rs1 rs2 => execCrsa16 rd rs1 rs2 s
  | .rcrsa16 rd rs1 rs2 => execRcrsa16 rd rs1 rs2 s
  | .urcrsa16 rd rs1 rs2 => execUrcrsa16 rd rs1 rs2 s
  | .kcrsa16 rd rs1 rs2 => execKcrsa16 rd rs1 rs2 s
  | .ukcrsa16 rd rs1 rs2 => execUkcrsa16 rd rs1 rs2 s
  | .sra16 rd rs1 rs2 => execSra16 rd rs1 rs2 s
  | .sra16U rd rs1 rs2 => execSra16U rd rs1 rs2 s
  | .srl16 rd rs1 rs2 => execSrl16 rd rs1 rs2 s
  | .srl16U rd rs1 rs2 => execSrl16U rd rs1 rs2 s
  | .sll16 rd rs1 rs2 => execSll16 rd rs1 rs2 s
  | .ksll16 rd rs1 rs2 => execKsll16 rd rs1 rs2 s
  | .srai16 rd rs1 imm4u => execSrai16 rd rs1 imm4u s
  | .srai16U rd rs1 imm4u => execSrai16U rd rs1 imm4u s
  | .srli16 rd rs1 imm4u => execSrli16 rd rs1 imm4u s
  | .srli16U rd rs1 imm4u => execSrli16U rd rs1 imm4u s
  | .slli16 rd rs1 imm4u => execSlli16 rd rs1 imm4u s
  | .kslli16 rd rs1 imm4u => execKslli16 rd rs1 imm4u s
  | .kslra16 rd rs1 rs2 => execKslra16 rd rs1 rs2 s
  | .kslra16U rd rs1 rs2 => execKslra16U rd rs1 rs2 s
  | .cmpeq16 rd rs1 rs2 => execCmpeq16 rd rs1 rs2 s
  | .scmplt16 rd rs1 rs2 => execScmplt16 rd rs1 rs2 s
  | .scmple16 rd rs1 rs2 => execScmple16 rd rs1 rs2 s
  | .ucmplt16 rd rs1 rs2 => execUcmplt16 rd rs1 rs2 s
  | .ucmple16 rd rs1 rs2 => execUcmple16 rd rs1 rs2 s
  | .cmpeq8 rd rs1 rs2 => execCmpeq8 rd rs1 rs2 s
  | .scmplt8 rd rs1 rs2 => execScmplt8 rd rs1 rs2 s
  | .scmple8 rd rs1 rs2 => execScmple8 rd rs1 rs2 s
  | .ucmplt8 rd rs1 rs2 => execUcmplt8 rd rs1 rs2 s
  | .ucmple8 rd rs1 rs2 => execUcmple8 rd rs1 rs2 s
  | .khm16 rd rs1 rs2 => execKhm16 rd rs1 rs2 s
  | .khmx16 rd rs1 rs2 => execKhmx16 rd rs1 rs2 s
  | .khm8 rd rs1 rs2 => execKhm8 rd rs1 rs2 s
  | .khmx8 rd rs1 rs2 => execKhmx8 rd rs1 rs2 s
  | .smin16 rd rs1 rs2 => execSmin16 rd rs1 rs2 s
  | .umin16 rd rs1 rs2 => execUmin16 rd rs1 rs2 s
  | .smax16 rd rs1 rs2 => execSmax16 rd rs1 rs2 s
  | .umax16 rd rs1 rs2 => execUmax16 rd rs1 rs2 s
  | .smin8 rd rs1 rs2 => execSmin8 rd rs1 rs2 s
  | .umin8 rd rs1 rs2 => execUmin8 rd rs1 rs2 s
  | .smax8 rd rs1 rs2 => execSmax8 rd rs1 rs2 s
  | .umax8 rd rs1 rs2 => execUmax8 rd rs1 rs2 s
  | .sclip16 rd rs1 imm4u => execSclip16 rd rs1 imm4u s
  | .uclip16 rd rs1 imm4u => execUclip16 rd rs1 imm4u s
  | .kabs16 rd rs1 => execKabs16 rd rs1 s
  | .kabs8 rd rs1 => execKabs8 rd rs1 s
  | .execIt _ => .refused .tableEntry
  | .lmw rb first last form paired => execLmw rb first last form paired s
  | .smw rb first last form paired => execSmw rb first last form paired s

/-- EXECIT_ADDR: the address of the entry (R378; log 18). The index is unsigned and 16 bits wide by the model's choice
(log 17). -/
def State.tableEntry (s : State) (n : Nat) (index : BitVec 16) : BitVec n :=
  match s.params.execItAddr with
  | .standard => s.hart.uitb.setWidth n + 4 * index.setWidth n
  | .supplied => (Config.execItAddr s.hart.uitb index).setWidth n

/-- Set the table-execute flag (R376). -/
def State.setTe (s : State) (te : Bool) : State := s.setHart { s.hart with te := te }

/-- The table-execute flag is clear again after the inner instruction (R376). -/
def clearTe : Result → Result
  | .next t => .next (t.setTe false)
  | .fault r => .fault r
  | .refused r => .refused r

/-- exec.it index (R379): fetch the entry with one request, then decode and run it in place with the table-execute flag set.
The pc stays that of this instruction. DEDUCED: a word that matches no row is IllegalInstruction, but one of the spaces of
spec/30_encoding.md R47 is REFUSED, as a fetched word is (log 28). -/
def execExecIt (index : BitVec 16) (s : State) : Result :=
  let a := s.tableEntry s.bits index
  if !s.params.admits a.toNat 4 .fetch then .next s.stuck
  else
    let w : BitVec 32 := s.mem.load a 4
    if w.extractLsb' 0 2 != 3 then .refused .tableEntry
    else clearTe ((s.setTe true).decodeRun runInner (.full w))

end

end Sys2Proof.Machine
end

