-- ==== Sys2Proof/Machine/Step.lean ====
section
/-! DEFINITION. The step, and the state that runs a given instruction next. -/

namespace Sys2Proof.Machine

noncomputable section

/-- One step of the machine (spec/40_helpers.md R54): the whole rule is `State.stepWith`, in Fetch.lean. -/
def step (s : State) : Host.Outcome State Fault Refusal := s.stepWith exec

/-- s with the instruction of an opcode-table word stored where the next step fetches (log 26). -/
def State.withFetchWord (s : State) (nbits w : Nat) : State := s.placeInstr (tableBytes nbits w)

end

end Sys2Proof.Machine
end

