-- ==== Sys2Proof/Safety.lean ====
section
/-! DEFINITION. The terms the statements use: how an instruction ends, what it writes and what it leaves alone, and what a
sound state is. -/

namespace Sys2Proof

namespace Machine

/-! ## How an instruction ends -/

/-- exec answers a next state, and it has the property. -/
def Completes (i : Instr) (s : State) (p : State → Prop) : Prop := ∃ t, exec i s = .next t ∧ p t

/-- The next pc would be 0, or the instruction is faulted for x2 (`bad`): the hart halts with IllegalInstruction at the pc and
the pc is not committed (spec/40_helpers.md R56, R57). Otherwise the pc is committed and the status stays. -/
def Finishes {n : Nat} (s t : State) (bad : Bool) (target : BitVec n) : Prop :=
  if bad = true ∨ target = 0 then
    t.hart.status = .halted .illegalInstruction s.hart.pc ∧ t.hart.pc = s.hart.pc
  else t.hart.status = s.hart.status ∧ t.hart.pc = target.setWidth 64

/-- v in rd fails the SP16 check: rd is x2 and v no multiple of 16, outside REDUCED_ABI (spec/40_helpers.md R57). -/
def State.spBad {n : Nat} (s : State) (rd : Reg) (v : BitVec n) : Bool :=
  rd == 2 && !s.params.reducedAbi && v.toNat % 16 != 0

/-- The registers may be named: outside REDUCED_ABI all, under it x0 to x15 (spec/10_state.md R13). -/
def State.mayName (s : State) (rs : List Reg) : Bool := !s.params.reducedAbi || rs.all fun r => r.toNat < 16

/-- From s to t one general register is written: rd holds v, or zero where rd is x0; every other general register, every byte
of memory and, by `frame`, every other part of the state but the pc and the status is as before. -/
structure WritesX {n : Nat} (s t : State) (rd : Reg) (v : BitVec n) (bad : Bool) (target : BitVec n) : Prop where
  result : t.readX 64 rd = if rd = 0 then 0 else v.setWidth 64
  others : ∀ r, r ≠ rd → t.readX 64 r = s.readX 64 r
  finish : Finishes s t bad target
  bytes : ∀ b, t.mem.read b = s.mem.read b
  frame : t = { s with hart := { s.hart with x := t.hart.x, pc := t.hart.pc, status := t.hart.status } }

/-- From s to t nothing is written but the pc, or the status where the next pc would be 0. -/
structure WritesNothing {n : Nat} (s t : State) (target : BitVec n) : Prop where
  finish : Finishes s t false target
  bytes : ∀ b, t.mem.read b = s.mem.read b
  frame : t = { s with hart := { s.hart with pc := t.hart.pc, status := t.hart.status } }

/-- Memory from s to t: the k bytes of v stand from address a on, little-endian, the addresses wrapping; every other byte is as
before (spec/20_memory.md R27, R31). -/
structure StoresBytes {n k : Nat} (s t : State) (a : BitVec n) (v : BitVec (8 * k)) : Prop where
  inside : ∀ j, j < k → t.mem.read (a + BitVec.ofNat n j).toNat = v.extractLsb' (8 * j) 8
  outside : ∀ b, (∀ j, j < k → b ≠ (a + BitVec.ofNat n j).toNat) → t.mem.read b = s.mem.read b

/-- From s to t the k bytes of v are stored at a; every register and, by `frame`, every other part of the state but the pc and
the status is as before. -/
structure WritesMem {n k : Nat} (s t : State) (a : BitVec n) (v : BitVec (8 * k)) (target : BitVec n) : Prop where
  stored : StoresBytes s t a v
  finish : Finishes s t false target
  frame : t = { s with mem := t.mem, hart := { s.hart with pc := t.hart.pc, status := t.hart.status } }

/-- From s to t one floating-point register is written: its view holds v, the bits from the view up to bit 63 are those of the
free value, bits 127:64 are as before (spec/10_state.md R16); the flags are accrued; every other floating-point register, every
byte of memory and, by `frame`, every other part of the state but the pc and the status is as before. -/
structure WritesF {n : Nat} (s t : State) (fmt : Fmt) (rd : Reg) (v : BitVec fmt.bits) (flags : BitVec 5)
    (target : BitVec n) : Prop where
  result : t.readF fmt rd = v
  middle : (t.hart.f[rd.toNat]'rd.isLt).extractLsb' fmt.bits (64 - fmt.bits) =
    (Config.draw s.draws).extractLsb' fmt.bits (64 - fmt.bits)
  upper : (t.hart.f[rd.toNat]'rd.isLt).extractLsb' 64 64 = (s.hart.f[rd.toNat]'rd.isLt).extractLsb' 64 64
  others : ∀ r : Reg, r ≠ rd → t.hart.f[r.toNat]'r.isLt = s.hart.f[r.toNat]'r.isLt
  accrued : t.hart.fflags = s.hart.fflags ||| flags
  draws : t.draws = s.draws + (if fmt = .d then 0 else 1)
  finish : Finishes s t false target
  bytes : ∀ b, t.mem.read b = s.mem.read b
  frame : t =
    { s with
      draws := t.draws
      hart :=
        { s.hart with f := t.hart.f, fflags := t.hart.fflags, pc := t.hart.pc, status := t.hart.status } }

/-- The state with the hart halted for a reason at its pc, and nothing else changed (spec/60_exceptions.md R382, R384). -/
def State.haltedFor (s : State) (reason : HaltReason) : State :=
  { s with hart := { s.hart with status := .halted reason s.hart.pc } }

/-- The state with the hart stuck, and nothing else changed (spec/20_memory.md R28). -/
def State.nowStuck (s : State) : State := { s with hart := { s.hart with status := .stuck } }

/-- The state with the refused mark recording a reason, and nothing else changed (spec/00_scope.md R7, R8 d). -/
def State.refusedFor (s : State) (reason : Refusal) : State := { s with refusedMark := some reason }

/-- A step of s on the hart that t has in front ends as instruction i does at t; a refusal is recorded in t. -/
structure StepRuns (i : Instr) (s t : State) : Prop where
  next : ∀ u, exec i t = .next u → step s = .next u
  refused : ∀ r, exec i t = .refused r → step s = .next (t.refusedFor r)
  fault : ∀ r, exec i t = .fault r → step s = .fault r

/-- An instruction that reads k bytes at a: with the request admitted it completes with a property of the bytes read, and with
the request refused the hart is stuck and nothing else happens (spec/20_memory.md R28, R31). -/
def LoadsFrom {n : Nat} (i : Instr) (s : State) (k : Nat) (a : BitVec n) (p : BitVec (8 * k) → State → Prop) : Prop :=
  (s.params.admits a.toNat k .read = true → Completes i s (p (s.mem.load a k))) ∧
  (s.params.admits a.toNat k .read = false → exec i s = .next s.nowStuck)

/-- An instruction that writes k bytes at a and goes on to a pc, in the same way. -/
def StoresTo {n : Nat} (i : Instr) (s : State) (k : Nat) (a : BitVec n) (v : BitVec (8 * k)) (target : BitVec n) : Prop :=
  (s.params.admits a.toNat k .write = true → Completes i s fun t => WritesMem s t a v target) ∧
  (s.params.admits a.toNat k .write = false → exec i s = .next s.nowStuck)

/-- From s to t every lane i of width w of rd holds `value i`, OV is set where some lane clamps and else is as before, and
nothing else changes but the pc (spec/40_helpers.md R60, R63). -/
def WritesLanes (w : Nat) (s t : State) (rd : Reg) (value : Nat → BitVec w) (clamps : Nat → Prop) : Prop :=
  ∃ (v : BitVec s.bits) (ov : Bool),
    (∀ i, i < s.bits / w → lane w v i = value i) ∧
    (ov = true ↔ ∃ i, i < s.bits / w ∧ clamps i) ∧
    WritesX { s with hart := { s.hart with ucode := if ov then s.hart.ucode ||| 1 else s.hart.ucode } } t rd v false
      (s.npc s.bits 4)

/-- The two finite values are the same number. -/
def Finite.SameNumber (x y : Finite) : Prop :=
  (x.negative = y.negative ∨ x.mantissa = 0 ∧ y.mantissa = 0) ∧
  ∃ base : Int, base ≤ x.place ∧ base ≤ y.place ∧
    x.mantissa * 2 ^ (x.place - base).toNat = y.mantissa * 2 ^ (y.place - base).toNat

/-- An integer as a finite value. -/
def Finite.ofInt (i : Int) : Finite := ⟨decide (i < 0), i.natAbs, 0⟩

end Machine

/-! ## What an instruction names -/

/-- The general registers the fields of an instruction name (spec/10_state.md R13). The base of lmw and smw is named with the
registers of their table, and is not here; neither are those of fence and fence.i, whose fields are ignored. -/
def Instr.xNames : Instr → List Reg
  | .lui rd _ => [rd]
  | .auipc rd _ => [rd]
  | .jal rd _ => [rd]
  | .jalr rd rs1 _ => [rd, rs1]
  | .beq rs1 rs2 _ => [rs1, rs2]
  | .bne rs1 rs2 _ => [rs1, rs2]
  | .blt rs1 rs2 _ => [rs1, rs2]
  | .bge rs1 rs2 _ => [rs1, rs2]
  | .bltu rs1 rs2 _ => [rs1, rs2]
  | .bgeu rs1 rs2 _ => [rs1, rs2]
  | .lb rd rs1 _ => [rd, rs1]
  | .lh rd rs1 _ => [rd, rs1]
  | .lw rd rs1 _ => [rd, rs1]
  | .lbu rd rs1 _ => [rd, rs1]
  | .lhu rd rs1 _ => [rd, rs1]
  | .lwu rd rs1 _ => [rd, rs1]
  | .ld rd rs1 _ => [rd, rs1]
  | .sb rs2 rs1 _ => [rs2, rs1]
  | .sh rs2 rs1 _ => [rs2, rs1]
  | .sw rs2 rs1 _ => [rs2, rs1]
  | .sd rs2 rs1 _ => [rs2, rs1]
  | .addi rd rs1 _ => [rd, rs1]
  | .slti rd rs1 _ => [rd, rs1]
  | .sltiu rd rs1 _ => [rd, rs1]
  | .xori rd rs1 _ => [rd, rs1]
  | .ori rd rs1 _ => [rd, rs1]
  | .andi rd rs1 _ => [rd, rs1]
  | .slli rd rs1 _ => [rd, rs1]
  | .srli rd rs1 _ => [rd, rs1]
  | .srai rd rs1 _ => [rd, rs1]
  | .add rd rs1 rs2 => [rd, rs1, rs2]
  | .sub rd rs1 rs2 => [rd, rs1, rs2]
  | .sll rd rs1 rs2 => [rd, rs1, rs2]
  | .slt rd rs1 rs2 => [rd, rs1, rs2]
  | .sltu rd rs1 rs2 => [rd, rs1, rs2]
  | .xor rd rs1 rs2 => [rd, rs1, rs2]
  | .srl rd rs1 rs2 => [rd, rs1, rs2]
  | .sra rd rs1 rs2 => [rd, rs1, rs2]
  | .or rd rs1 rs2 => [rd, rs1, rs2]
  | .and rd rs1 rs2 => [rd, rs1, rs2]
  | .addiw rd rs1 _ => [rd, rs1]
  | .slliw rd rs1 _ => [rd, rs1]
  | .srliw rd rs1 _ => [rd, rs1]
  | .sraiw rd rs1 _ => [rd, rs1]
  | .addw rd rs1 rs2 => [rd, rs1, rs2]
  | .subw rd rs1 rs2 => [rd, rs1, rs2]
  | .sllw rd rs1 rs2 => [rd, rs1, rs2]
  | .srlw rd rs1 rs2 => [rd, rs1, rs2]
  | .sraw rd rs1 rs2 => [rd, rs1, rs2]
  | .fence _ _ _ _ _ => []
  | .fenceI _ _ _ => []
  | .ecall => []
  | .ebreak => []
  | .csrrw rd _ rs1 => [rd, rs1]
  | .csrrs rd _ rs1 => [rd, rs1]
  | .csrrc rd _ rs1 => [rd, rs1]
  | .csrrwi rd _ _ => [rd]
  | .csrrsi rd _ _ => [rd]
  | .csrrci rd _ _ => [rd]
  | .cAddi4spn _ _ => []
  | .cFld _ _ _ => []
  | .cLw _ _ _ => []
  | .cFlw _ _ _ => []
  | .cLd _ _ _ => []
  | .cFsd _ _ _ => []
  | .cSw _ _ _ => []
  | .cFsw _ _ _ => []
  | .cSd _ _ _ => []
  | .cNop => []
  | .cAddi rd _ => [rd]
  | .cJal _ => []
  | .cAddiw rd _ => [rd]
  | .cLi rd _ => [rd]
  | .cAddi16sp _ => []
  | .cLui rd _ => [rd]
  | .cSrli _ _ => []
  | .cSrai _ _ => []
  | .cAndi _ _ => []
  | .cSub _ _ => []
  | .cXor _ _ => []
  | .cOr _ _ => []
  | .cAnd _ _ => []
  | .cSubw _ _ => []
  | .cAddw _ _ => []
  | .cJ _ => []
  | .cBeqz _ _ => []
  | .cBnez _ _ => []
  | .cSlli rd _ => [rd]
  | .cFldsp _ _ => []
  | .cLwsp rd _ => [rd]
  | .cFlwsp _ _ => []
  | .cLdsp rd _ => [rd]
  | .cJr rs1 => [rs1]
  | .cMv rd rs2 => [rd, rs2]
  | .cEbreak => []
  | .cJalr rs1 => [rs1]
  | .cAdd rd rs2 => [rd, rs2]
  | .cFsdsp _ _ => []
  | .cSwsp rs2 _ => [rs2]
  | .cFswsp _ _ => []
  | .cSdsp rs2 _ => [rs2]
  | .mul rd rs1 rs2 => [rd, rs1, rs2]
  | .mulh rd rs1 rs2 => [rd, rs1, rs2]
  | .mulhsu rd rs1 rs2 => [rd, rs1, rs2]
  | .mulhu rd rs1 rs2 => [rd, rs1, rs2]
  | .div rd rs1 rs2 => [rd, rs1, rs2]
  | .divu rd rs1 rs2 => [rd, rs1, rs2]
  | .rem rd rs1 rs2 => [rd, rs1, rs2]
  | .remu rd rs1 rs2 => [rd, rs1, rs2]
  | .mulw rd rs1 rs2 => [rd, rs1, rs2]
  | .divw rd rs1 rs2 => [rd, rs1, rs2]
  | .divuw rd rs1 rs2 => [rd, rs1, rs2]
  | .remw rd rs1 rs2 => [rd, rs1, rs2]
  | .remuw rd rs1 rs2 => [rd, rs1, rs2]
  | .lrW rd rs1 _ _ => [rd, rs1]
  | .scW rd rs2 rs1 _ _ => [rd, rs2, rs1]
  | .amoswapW rd rs2 rs1 _ _ => [rd, rs2, rs1]
  | .amoaddW rd rs2 rs1 _ _ => [rd, rs2, rs1]
  | .amoxorW rd rs2 rs1 _ _ => [rd, rs2, rs1]
  | .amoandW rd rs2 rs1 _ _ => [rd, rs2, rs1]
  | .amoorW rd rs2 rs1 _ _ => [rd, rs2, rs1]
  | .amominW rd rs2 rs1 _ _ => [rd, rs2, rs1]
  | .amomaxW rd rs2 rs1 _ _ => [rd, rs2, rs1]
  | .amominuW rd rs2 rs1 _ _ => [rd, rs2, rs1]
  | .amomaxuW rd rs2 rs1 _ _ => [rd, rs2, rs1]
  | .lrD rd rs1 _ _ => [rd, rs1]
  | .scD rd rs2 rs1 _ _ => [rd, rs2, rs1]
  | .amoswapD rd rs2 rs1 _ _ => [rd, rs2, rs1]
  | .amoaddD rd rs2 rs1 _ _ => [rd, rs2, rs1]
  | .amoxorD rd rs2 rs1 _ _ => [rd, rs2, rs1]
  | .amoandD rd rs2 rs1 _ _ => [rd, rs2, rs1]
  | .amoorD rd rs2 rs1 _ _ => [rd, rs2, rs1]
  | .amominD rd rs2 rs1 _ _ => [rd, rs2, rs1]
  | .amomaxD rd rs2 rs1 _ _ => [rd, rs2, rs1]
  | .amominuD rd rs2 rs1 _ _ => [rd, rs2, rs1]
  | .amomaxuD rd rs2 rs1 _ _ => [rd, rs2, rs1]
  | .fcvtSD _ _ _ => []
  | .fcvtDS _ _ _ => []
  | .fcvtSH _ _ _ => []
  | .fcvtHS _ _ _ => []
  | .fcvtDH _ _ _ => []
  | .fcvtHD _ _ _ => []
  | .flw _ rs1 _ => [rs1]
  | .fsw _ rs1 _ => [rs1]
  | .fmaddS _ _ _ _ _ => []
  | .fmsubS _ _ _ _ _ => []
  | .fnmsubS _ _ _ _ _ => []
  | .fnmaddS _ _ _ _ _ => []
  | .faddS _ _ _ _ => []
  | .fsubS _ _ _ _ => []
  | .fmulS _ _ _ _ => []
  | .fdivS _ _ _ _ => []
  | .fsqrtS _ _ _ => []
  | .fsgnjS _ _ _ => []
  | .fsgnjnS _ _ _ => []
  | .fsgnjxS _ _ _ => []
  | .fminS _ _ _ => []
  | .fmaxS _ _ _ => []
  | .feqS rd _ _ => [rd]
  | .fltS rd _ _ => [rd]
  | .fleS rd _ _ => [rd]
  | .fclassS rd _ => [rd]
  | .fcvtWS rd _ _ => [rd]
  | .fcvtSW _ rs1 _ => [rs1]
  | .fcvtWuS rd _ _ => [rd]
  | .fcvtSWu _ rs1 _ => [rs1]
  | .fcvtLS rd _ _ => [rd]
  | .fcvtSL _ rs1 _ => [rs1]
  | .fcvtLuS rd _ _ => [rd]
  | .fcvtSLu _ rs1 _ => [rs1]
  | .fmvXW rd _ => [rd]
  | .fmvWX _ rs1 => [rs1]
  | .fld _ rs1 _ => [rs1]
  | .fsd _ rs1 _ => [rs1]
  | .fmaddD _ _ _ _ _ => []
  | .fmsubD _ _ _ _ _ => []
  | .fnmsubD _ _ _ _ _ => []
  | .fnmaddD _ _ _ _ _ => []
  | .faddD _ _ _ _ => []
  | .fsubD _ _ _ _ => []
  | .fmulD _ _ _ _ => []
  | .fdivD _ _ _ _ => []
  | .fsqrtD _ _ _ => []
  | .fsgnjD _ _ _ => []
  | .fsgnjnD _ _ _ => []
  | .fsgnjxD _ _ _ => []
  | .fminD _ _ _ => []
  | .fmaxD _ _ _ => []
  | .feqD rd _ _ => [rd]
  | .fltD rd _ _ => [rd]
  | .fleD rd _ _ => [rd]
  | .fclassD rd _ => [rd]
  | .fcvtWD rd _ _ => [rd]
  | .fcvtDW _ rs1 _ => [rs1]
  | .fcvtWuD rd _ _ => [rd]
  | .fcvtDWu _ rs1 _ => [rs1]
  | .fcvtLD rd _ _ => [rd]
  | .fcvtDL _ rs1 _ => [rs1]
  | .fcvtLuD rd _ _ => [rd]
  | .fcvtDLu _ rs1 _ => [rs1]
  | .fmvXD rd _ => [rd]
  | .fmvDX _ rs1 => [rs1]
  | .flh _ rs1 _ => [rs1]
  | .fsh _ rs1 _ => [rs1]
  | .fmaddH _ _ _ _ _ => []
  | .fmsubH _ _ _ _ _ => []
  | .fnmsubH _ _ _ _ _ => []
  | .fnmaddH _ _ _ _ _ => []
  | .faddH _ _ _ _ => []
  | .fsubH _ _ _ _ => []
  | .fmulH _ _ _ _ => []
  | .fdivH _ _ _ _ => []
  | .fsqrtH _ _ _ => []
  | .fsgnjH _ _ _ => []
  | .fsgnjnH _ _ _ => []
  | .fsgnjxH _ _ _ => []
  | .fminH _ _ _ => []
  | .fmaxH _ _ _ => []
  | .feqH rd _ _ => [rd]
  | .fltH rd _ _ => [rd]
  | .fleH rd _ _ => [rd]
  | .fclassH rd _ => [rd]
  | .fcvtWH rd _ _ => [rd]
  | .fcvtHW _ rs1 _ => [rs1]
  | .fcvtWuH rd _ _ => [rd]
  | .fcvtHWu _ rs1 _ => [rs1]
  | .fcvtLH rd _ _ => [rd]
  | .fcvtHL _ rs1 _ => [rs1]
  | .fcvtLuH rd _ _ => [rd]
  | .fcvtHLu _ rs1 _ => [rs1]
  | .fmvXH rd _ => [rd]
  | .fmvHX _ rs1 => [rs1]
  | .fcvtSBf16 _ _ => []
  | .fcvtBf16S _ _ => []
  | .add16 rd rs1 rs2 => [rd, rs1, rs2]
  | .radd16 rd rs1 rs2 => [rd, rs1, rs2]
  | .uradd16 rd rs1 rs2 => [rd, rs1, rs2]
  | .kadd16 rd rs1 rs2 => [rd, rs1, rs2]
  | .ukadd16 rd rs1 rs2 => [rd, rs1, rs2]
  | .sub16 rd rs1 rs2 => [rd, rs1, rs2]
  | .rsub16 rd rs1 rs2 => [rd, rs1, rs2]
  | .ursub16 rd rs1 rs2 => [rd, rs1, rs2]
  | .ksub16 rd rs1 rs2 => [rd, rs1, rs2]
  | .uksub16 rd rs1 rs2 => [rd, rs1, rs2]
  | .add8 rd rs1 rs2 => [rd, rs1, rs2]
  | .radd8 rd rs1 rs2 => [rd, rs1, rs2]
  | .uradd8 rd rs1 rs2 => [rd, rs1, rs2]
  | .kadd8 rd rs1 rs2 => [rd, rs1, rs2]
  | .ukadd8 rd rs1 rs2 => [rd, rs1, rs2]
  | .sub8 rd rs1 rs2 => [rd, rs1, rs2]
  | .rsub8 rd rs1 rs2 => [rd, rs1, rs2]
  | .ursub8 rd rs1 rs2 => [rd, rs1, rs2]
  | .ksub8 rd rs1 rs2 => [rd, rs1, rs2]
  | .uksub8 rd rs1 rs2 => [rd, rs1, rs2]
  | .cras16 rd rs1 rs2 => [rd, rs1, rs2]
  | .rcras16 rd rs1 rs2 => [rd, rs1, rs2]
  | .urcras16 rd rs1 rs2 => [rd, rs1, rs2]
  | .kcras16 rd rs1 rs2 => [rd, rs1, rs2]
  | .ukcras16 rd rs1 rs2 => [rd, rs1, rs2]
  | .crsa16 rd rs1 rs2 => [rd, rs1, rs2]
  | .rcrsa16 rd rs1 rs2 => [rd, rs1, rs2]
  | .urcrsa16 rd rs1 rs2 => [rd, rs1, rs2]
  | .kcrsa16 rd rs1 rs2 => [rd, rs1, rs2]
  | .ukcrsa16 rd rs1 rs2 => [rd, rs1, rs2]
  | .sra16 rd rs1 rs2 => [rd, rs1, rs2]
  | .sra16U rd rs1 rs2 => [rd, rs1, rs2]
  | .srl16 rd rs1 rs2 => [rd, rs1, rs2]
  | .srl16U rd rs1 rs2 => [rd, rs1, rs2]
  | .sll16 rd rs1 rs2 => [rd, rs1, rs2]
  | .ksll16 rd rs1 rs2 => [rd, rs1, rs2]
  | .srai16 rd rs1 _ => [rd, rs1]
  | .srai16U rd rs1 _ => [rd, rs1]
  | .srli16 rd rs1 _ => [rd, rs1]
  | .srli16U rd rs1 _ => [rd, rs1]
  | .slli16 rd rs1 _ => [rd, rs1]
  | .kslli16 rd rs1 _ => [rd, rs1]
  | .kslra16 rd rs1 rs2 => [rd, rs1, rs2]
  | .kslra16U rd rs1 rs2 => [rd, rs1, rs2]
  | .cmpeq16 rd rs1 rs2 => [rd, rs1, rs2]
  | .scmplt16 rd rs1 rs2 => [rd, rs1, rs2]
  | .scmple16 rd rs1 rs2 => [rd, rs1, rs2]
  | .ucmplt16 rd rs1 rs2 => [rd, rs1, rs2]
  | .ucmple16 rd rs1 rs2 => [rd, rs1, rs2]
  | .cmpeq8 rd rs1 rs2 => [rd, rs1, rs2]
  | .scmplt8 rd rs1 rs2 => [rd, rs1, rs2]
  | .scmple8 rd rs1 rs2 => [rd, rs1, rs2]
  | .ucmplt8 rd rs1 rs2 => [rd, rs1, rs2]
  | .ucmple8 rd rs1 rs2 => [rd, rs1, rs2]
  | .khm16 rd rs1 rs2 => [rd, rs1, rs2]
  | .khmx16 rd rs1 rs2 => [rd, rs1, rs2]
  | .khm8 rd rs1 rs2 => [rd, rs1, rs2]
  | .khmx8 rd rs1 rs2 => [rd, rs1, rs2]
  | .smin16 rd rs1 rs2 => [rd, rs1, rs2]
  | .umin16 rd rs1 rs2 => [rd, rs1, rs2]
  | .smax16 rd rs1 rs2 => [rd, rs1, rs2]
  | .umax16 rd rs1 rs2 => [rd, rs1, rs2]
  | .smin8 rd rs1 rs2 => [rd, rs1, rs2]
  | .umin8 rd rs1 rs2 => [rd, rs1, rs2]
  | .smax8 rd rs1 rs2 => [rd, rs1, rs2]
  | .umax8 rd rs1 rs2 => [rd, rs1, rs2]
  | .sclip16 rd rs1 _ => [rd, rs1]
  | .uclip16 rd rs1 _ => [rd, rs1]
  | .kabs16 rd rs1 => [rd, rs1]
  | .kabs8 rd rs1 => [rd, rs1]
  | .execIt _ => []
  | .lmw _ _ _ _ _ => []
  | .smw _ _ _ _ _ => []

/-- Which flags an instruction writes. -/
inductive FlagEffect where
  | none
  | accrued
  | overflow
  | other
  deriving DecidableEq, Repr

/-- The flags the rule of an instruction names: no flag; the accrued flags of spec/45_float.md and
spec/46_float_half_bf16.md; OV, in spec/47_packed_simd.md; or whatever a CSR instruction writes to its CSR and the
instruction in an exec.it does (spec/10_state.md R21, R22). -/
def Instr.flagEffect : Instr → FlagEffect
  | .lui _ _ | .auipc _ _ | .jal _ _ | .jalr _ _ _ | .beq _ _ _ | .bne _ _ _ | .blt _ _ _ | .bge _ _ _
  | .bltu _ _ _ | .bgeu _ _ _ | .lb _ _ _ | .lh _ _ _ | .lw _ _ _ | .lbu _ _ _ | .lhu _ _ _ | .lwu _ _ _
  | .ld _ _ _ | .sb _ _ _ | .sh _ _ _ | .sw _ _ _ | .sd _ _ _ | .addi _ _ _ | .slti _ _ _ | .sltiu _ _ _
  | .xori _ _ _ | .ori _ _ _ | .andi _ _ _ | .slli _ _ _ | .srli _ _ _ | .srai _ _ _ | .add _ _ _ | .sub _ _ _
  | .sll _ _ _ | .slt _ _ _ | .sltu _ _ _ | .xor _ _ _ | .srl _ _ _ | .sra _ _ _ | .or _ _ _ | .and _ _ _
  | .addiw _ _ _ | .slliw _ _ _ | .srliw _ _ _ | .sraiw _ _ _ | .addw _ _ _ | .subw _ _ _ | .sllw _ _ _
  | .srlw _ _ _ | .sraw _ _ _ | .fence _ _ _ _ _ | .fenceI _ _ _ | .ecall | .ebreak | .cAddi4spn _ _ | .cFld _ _ _
  | .cLw _ _ _ | .cFlw _ _ _ | .cLd _ _ _ | .cFsd _ _ _ | .cSw _ _ _ | .cFsw _ _ _ | .cSd _ _ _ | .cNop
  | .cAddi _ _ | .cJal _ | .cAddiw _ _ | .cLi _ _ | .cAddi16sp _ | .cLui _ _ | .cSrli _ _ | .cSrai _ _ | .cAndi _ _
  | .cSub _ _ | .cXor _ _ | .cOr _ _ | .cAnd _ _ | .cSubw _ _ | .cAddw _ _ | .cJ _ | .cBeqz _ _ | .cBnez _ _
  | .cSlli _ _ | .cFldsp _ _ | .cLwsp _ _ | .cFlwsp _ _ | .cLdsp _ _ | .cJr _ | .cMv _ _ | .cEbreak | .cJalr _
  | .cAdd _ _ | .cFsdsp _ _ | .cSwsp _ _ | .cFswsp _ _ | .cSdsp _ _ | .mul _ _ _ | .mulh _ _ _ | .mulhsu _ _ _
  | .mulhu _ _ _ | .div _ _ _ | .divu _ _ _ | .rem _ _ _ | .remu _ _ _ | .mulw _ _ _ | .divw _ _ _ | .divuw _ _ _
  | .remw _ _ _ | .remuw _ _ _ | .lrW _ _ _ _ | .scW _ _ _ _ _ | .amoswapW _ _ _ _ _ | .amoaddW _ _ _ _ _
  | .amoxorW _ _ _ _ _ | .amoandW _ _ _ _ _ | .amoorW _ _ _ _ _ | .amominW _ _ _ _ _ | .amomaxW _ _ _ _ _
  | .amominuW _ _ _ _ _ | .amomaxuW _ _ _ _ _ | .lrD _ _ _ _ | .scD _ _ _ _ _ | .amoswapD _ _ _ _ _
  | .amoaddD _ _ _ _ _ | .amoxorD _ _ _ _ _ | .amoandD _ _ _ _ _ | .amoorD _ _ _ _ _ | .amominD _ _ _ _ _
  | .amomaxD _ _ _ _ _ | .amominuD _ _ _ _ _ | .amomaxuD _ _ _ _ _ | .flw _ _ _ | .fsw _ _ _ | .fsgnjS _ _ _
  | .fsgnjnS _ _ _ | .fsgnjxS _ _ _ | .fclassS _ _ | .fmvXW _ _ | .fmvWX _ _ | .fld _ _ _ | .fsd _ _ _
  | .fsgnjD _ _ _ | .fsgnjnD _ _ _ | .fsgnjxD _ _ _ | .fclassD _ _ | .fmvXD _ _ | .fmvDX _ _ | .flh _ _ _
  | .fsh _ _ _ | .fsgnjH _ _ _ | .fsgnjnH _ _ _ | .fsgnjxH _ _ _ | .fclassH _ _ | .fmvXH _ _ | .fmvHX _ _
  | .fcvtSBf16 _ _ | .add16 _ _ _ | .radd16 _ _ _ | .uradd16 _ _ _ | .sub16 _ _ _ | .rsub16 _ _ _ | .ursub16 _ _ _
  | .add8 _ _ _ | .radd8 _ _ _ | .uradd8 _ _ _ | .sub8 _ _ _ | .rsub8 _ _ _ | .ursub8 _ _ _ | .cras16 _ _ _
  | .rcras16 _ _ _ | .urcras16 _ _ _ | .crsa16 _ _ _ | .rcrsa16 _ _ _ | .urcrsa16 _ _ _ | .sra16 _ _ _
  | .sra16U _ _ _ | .srl16 _ _ _ | .srl16U _ _ _ | .sll16 _ _ _ | .srai16 _ _ _ | .srai16U _ _ _ | .srli16 _ _ _
  | .srli16U _ _ _ | .slli16 _ _ _ | .cmpeq16 _ _ _ | .scmplt16 _ _ _ | .scmple16 _ _ _ | .ucmplt16 _ _ _
  | .ucmple16 _ _ _ | .cmpeq8 _ _ _ | .scmplt8 _ _ _ | .scmple8 _ _ _ | .ucmplt8 _ _ _ | .ucmple8 _ _ _
  | .smin16 _ _ _ | .umin16 _ _ _ | .smax16 _ _ _ | .umax16 _ _ _ | .smin8 _ _ _ | .umin8 _ _ _ | .smax8 _ _ _
  | .umax8 _ _ _ | .lmw _ _ _ _ _ | .smw _ _ _ _ _ => .none
  | .fcvtSD _ _ _ | .fcvtDS _ _ _ | .fcvtSH _ _ _ | .fcvtHS _ _ _ | .fcvtDH _ _ _ | .fcvtHD _ _ _
  | .fmaddS _ _ _ _ _ | .fmsubS _ _ _ _ _ | .fnmsubS _ _ _ _ _ | .fnmaddS _ _ _ _ _ | .faddS _ _ _ _
  | .fsubS _ _ _ _ | .fmulS _ _ _ _ | .fdivS _ _ _ _ | .fsqrtS _ _ _ | .fminS _ _ _ | .fmaxS _ _ _ | .feqS _ _ _
  | .fltS _ _ _ | .fleS _ _ _ | .fcvtWS _ _ _ | .fcvtSW _ _ _ | .fcvtWuS _ _ _ | .fcvtSWu _ _ _ | .fcvtLS _ _ _
  | .fcvtSL _ _ _ | .fcvtLuS _ _ _ | .fcvtSLu _ _ _ | .fmaddD _ _ _ _ _ | .fmsubD _ _ _ _ _ | .fnmsubD _ _ _ _ _
  | .fnmaddD _ _ _ _ _ | .faddD _ _ _ _ | .fsubD _ _ _ _ | .fmulD _ _ _ _ | .fdivD _ _ _ _ | .fsqrtD _ _ _
  | .fminD _ _ _ | .fmaxD _ _ _ | .feqD _ _ _ | .fltD _ _ _ | .fleD _ _ _ | .fcvtWD _ _ _ | .fcvtDW _ _ _
  | .fcvtWuD _ _ _ | .fcvtDWu _ _ _ | .fcvtLD _ _ _ | .fcvtDL _ _ _ | .fcvtLuD _ _ _ | .fcvtDLu _ _ _
  | .fmaddH _ _ _ _ _ | .fmsubH _ _ _ _ _ | .fnmsubH _ _ _ _ _ | .fnmaddH _ _ _ _ _ | .faddH _ _ _ _
  | .fsubH _ _ _ _ | .fmulH _ _ _ _ | .fdivH _ _ _ _ | .fsqrtH _ _ _ | .fminH _ _ _ | .fmaxH _ _ _ | .feqH _ _ _
  | .fltH _ _ _ | .fleH _ _ _ | .fcvtWH _ _ _ | .fcvtHW _ _ _ | .fcvtWuH _ _ _ | .fcvtHWu _ _ _ | .fcvtLH _ _ _
  | .fcvtHL _ _ _ | .fcvtLuH _ _ _ | .fcvtHLu _ _ _ | .fcvtBf16S _ _ => .accrued
  | .kadd16 _ _ _ | .ukadd16 _ _ _ | .ksub16 _ _ _ | .uksub16 _ _ _ | .kadd8 _ _ _ | .ukadd8 _ _ _ | .ksub8 _ _ _
  | .uksub8 _ _ _ | .kcras16 _ _ _ | .ukcras16 _ _ _ | .kcrsa16 _ _ _ | .ukcrsa16 _ _ _ | .ksll16 _ _ _
  | .kslli16 _ _ _ | .kslra16 _ _ _ | .kslra16U _ _ _ | .khm16 _ _ _ | .khmx16 _ _ _ | .khm8 _ _ _ | .khmx8 _ _ _
  | .sclip16 _ _ _ | .uclip16 _ _ _ | .kabs16 _ _ | .kabs8 _ _ => .overflow
  | .csrrw _ _ _ | .csrrs _ _ _ | .csrrc _ _ _ | .csrrwi _ _ _ | .csrrsi _ _ _ | .csrrci _ _ _ | .execIt _ => .other

namespace Machine

/-! ## Sound states -/

/-- A value of XLEN bits: the storage holds nothing above them (log 2). -/
def fitsIn (n : Nat) (v : Word) : Prop := v.toNat < 2 ^ n

/-- A hart as steps leave it: an even pc, x0 storing zero, no table-execute between instructions, and every register of XLEN
bits within XLEN. -/
structure Hart.Sound (n : Nat) (h : Hart) : Prop where
  pcEven : h.pc.getLsbD 0 = false
  pcFits : fitsIn n h.pc
  teClear : h.te = false
  zeroReg : h.x[0] = 0
  xFits : ∀ r : Reg, fitsIn n (h.x[r.toNat]'r.isLt)
  cycleFits : fitsIn n h.cycle
  timeFits : fitsIn n h.time
  instretFits : fitsIn n h.instret
  uitbFits : fitsIn n h.uitb
  ucodeFits : fitsIn n h.ucode
  mvendoridFits : fitsIn n h.mvendorid
  marchidFits : fitsIn n h.marchid
  mimpidFits : fitsIn n h.mimpid
  mhartidFits : fitsIn n h.mhartid

/-- The invariant of the machine: memory and the reservation set in canonical form and inside the address space, and every
hart sound. -/
structure State.Inv (s : State) : Prop where
  memWf : s.mem.wf = true
  memInside : ∀ c ∈ s.mem, c.1 < 2 ^ s.bits
  resvWf : resvWf s.resv = true
  resvInside : ∀ a ∈ s.resv, a < 2 ^ s.bits
  hart : Hart.Sound s.bits s.hart
  parked : ∀ h ∈ s.parked, Hart.Sound s.bits h

end Machine

end Sys2Proof
end

