-- ==== Sys2Proof/Certificates/Slice0/Obligations.lean ====
section
/-! DEFINITION. The statements: what the spec says the instructions and the machine do. -/

open Sys2Proof Sys2Proof.Machine

/-- spec/10_state.md R23, R26, R18 and spec/70_reset_and_hazards.md R401: what the launch fixes. The registers are launch
arguments, so nothing is said of them. -/
def Obligations.ResetState : Prop :=
  State.reset.hart.status = .running ∧ State.reset.resv = [] ∧ State.reset.refusedMark = none ∧
    State.reset.hart.fcsrOpen = false ∧ State.reset.hart.te = false ∧ ∀ h ∈ State.reset.parked, h.status = .running

/-- spec/10_state.md R12 and spec/40_helpers.md R55. -/
def Obligations.RegisterZeroAndNextPc : Prop :=
  (∀ (s : State) (n : Nat) (v : BitVec n), s.readX n 0 = 0 ∧ s.writeX 0 v = s) ∧
  (∀ (s : State) (r : Reg) (v : Word), r ≠ 0 → (s.writeX r v).readX 64 r = v) ∧
  (∀ (s : State) (r q : Reg) (v : Word), q ≠ r → (s.writeX r v).readX 64 q = s.readX 64 q) ∧
  (∀ (s : State) (n : Nat) (l : BitVec n), s.npc n l = s.pcVal n + l - (if s.hart.te then 2 else 0))

/-- spec/20_memory.md R27, R31, R34. The canonical form is the model's own (log 7). -/
def Obligations.MemoryBytes : Prop :=
  ∀ (n k : Nat) (m : Memory) (a : BitVec n) (v : BitVec (8 * k)), k ≤ 2 ^ n →
    (∀ j, j < k → (m.load a k).extractLsb' (8 * j) 8 = m.read (a + BitVec.ofNat n j).toNat) ∧
    (∀ j, j < k → (m.store a k v).read (a + BitVec.ofNat n j).toNat = v.extractLsb' (8 * j) 8) ∧
    (∀ b, (∀ j, j < k → b ≠ (a + BitVec.ofNat n j).toNat) → (m.store a k v).read b = m.read b) ∧
    (m.store a k v).load a k = v ∧
    (m.wf = true → (m.store a k v).wf = true)

/-- spec/41_base_integer.md R64, R65, for every rd and every state. -/
def Obligations.UpperImmediates : Prop :=
  ∀ (s : State) (rd : Reg) (imm20 : BitVec 20), s.mayName [rd] = true →
    let v : BitVec s.bits := (imm20 ++ 0#12).signExtend s.bits
    ∀ p ∈ [(Instr.lui rd imm20, v), (.auipc rd imm20, s.pcVal s.bits + v)],
      Completes p.1 s fun t => WritesX s t rd p.2 (s.spBad rd p.2) (s.npc s.bits 4)

/-- spec/41_base_integer.md R94 to R103, for every register and every state; the SP16 and pc-zero halts
(spec/40_helpers.md R56, R57) are the two ways a step does not commit the pc, the result standing all the same. -/
def Obligations.RegisterArithmetic : Prop :=
  ∀ (s : State) (rd rs1 rs2 : Reg), s.mayName [rd, rs1, rs2] = true →
    let a := s.readX s.bits rs1
    let b := s.readX s.bits rs2
    ∀ p ∈ [
        (Instr.add rd rs1 rs2, a + b),
        (.sub rd rs1 rs2, a - b),
        (.sll rd rs1 rs2, a <<< (b.toNat % s.bits)),
        (.slt rd rs1 rs2, if a.toInt < b.toInt then 1 else 0),
        (.sltu rd rs1 rs2, if a.toNat < b.toNat then 1 else 0),
        (.xor rd rs1 rs2, a ^^^ b),
        (.srl rd rs1 rs2, a >>> (b.toNat % s.bits)),
        (.sra rd rs1 rs2, a.sshiftRight (b.toNat % s.bits)),
        (.or rd rs1 rs2, a ||| b),
        (.and rd rs1 rs2, a &&& b)],
      Completes p.1 s fun t => WritesX s t rd p.2 (s.spBad rd p.2) (s.npc s.bits 4)

/-- spec/41_base_integer.md R85 to R93. -/
def Obligations.ImmediateArithmetic : Prop :=
  ∀ (s : State) (rd rs1 : Reg) (imm : BitVec 12) (shamt : BitVec 6), s.mayName [rd, rs1] = true →
    let a := s.readX s.bits rs1
    let b : BitVec s.bits := imm.signExtend s.bits
    (∀ p ∈ [
        (Instr.addi rd rs1 imm, a + b),
        (.slti rd rs1 imm, if a.toInt < b.toInt then 1 else 0),
        (.sltiu rd rs1 imm, if a.toNat < b.toNat then 1 else 0),
        (.xori rd rs1 imm, a ^^^ b),
        (.ori rd rs1 imm, a ||| b),
        (.andi rd rs1 imm, a &&& b)],
      Completes p.1 s fun t => WritesX s t rd p.2 (s.spBad rd p.2) (s.npc s.bits 4)) ∧
    (shamt.toNat < s.bits → ∀ p ∈ [
        (Instr.slli rd rs1 shamt, a <<< shamt.toNat),
        (.srli rd rs1 shamt, a >>> shamt.toNat),
        (.srai rd rs1 shamt, a.sshiftRight shamt.toNat)],
      Completes p.1 s fun t => WritesX s t rd p.2 (s.spBad rd p.2) (s.npc s.bits 4))

/-- spec/41_base_integer.md R104 to R112. -/
def Obligations.WordArithmetic : Prop :=
  ∀ (s : State) (rd rs1 rs2 : Reg) (imm : BitVec 12) (shamt : BitVec 5), s.params.xlen = .rv64 →
    s.mayName [rd, rs1, rs2] = true →
    let a : BitVec 32 := (s.readX s.bits rs1).setWidth 32
    let b : BitVec 32 := (s.readX s.bits rs2).setWidth 32
    ∀ p ∈ [
        (Instr.addiw rd rs1 imm, a + imm.signExtend 32),
        (.slliw rd rs1 shamt, a <<< shamt.toNat),
        (.srliw rd rs1 shamt, a >>> shamt.toNat),
        (.sraiw rd rs1 shamt, a.sshiftRight shamt.toNat),
        (.addw rd rs1 rs2, a + b),
        (.subw rd rs1 rs2, a - b),
        (.sllw rd rs1 rs2, a <<< (b.toNat % 32)),
        (.srlw rd rs1 rs2, a >>> (b.toNat % 32)),
        (.sraw rd rs1 rs2, a.sshiftRight (b.toNat % 32))],
      Completes p.1 s fun t => WritesX s t rd ((p.2 : BitVec 32).signExtend s.bits)
        (s.spBad rd ((p.2 : BitVec 32).signExtend s.bits)) (s.npc s.bits 4)

/-- spec/41_base_integer.md R66, R67 and spec/48_andes_vendor.md R379. What a supplied EXECIT_LINK sees is the model's (log
18). -/
def Obligations.JumpAndLink : Prop :=
  ∀ (s : State) (rd rs1 : Reg) (off : BitVec 20) (imm : BitVec 12), s.mayName [rd, rs1] = true →
    let near := s.pcVal s.bits + (off ++ 0#1).signExtend s.bits
    let far := (s.readX s.bits rs1 + imm.signExtend s.bits) &&& ~~~1
    (s.hart.te = false ∨ rd = 0 → ∀ p ∈ [(Instr.jal rd off, near), (.jalr rd rs1 imm, far)],
      Completes p.1 s fun t =>
        WritesX s t rd (s.pcVal s.bits + 4) (s.spBad rd (s.pcVal s.bits + 4)) p.2) ∧
    (s.hart.te = true → rd ≠ 0 → ∀ o, s.params.execItLink = some o →
      let link : BitVec s.bits :=
        match o with
        | .offset bytes => s.pcVal s.bits + bytes.setWidth s.bits
        | .supplied => (Config.execItLink ⟨s.hart.pc, s.hart.uitb, rd, s.hart.x, s.mem⟩).setWidth s.bits
      ∀ p ∈ [(Instr.jal rd off, near), (.jalr rd rs1 imm, far)],
      Completes p.1 s fun t => WritesX s t rd link (s.spBad rd link) p.2) ∧
    (s.hart.te = true → rd ≠ 0 → s.params.execItLink = none →
      ∀ i ∈ [Instr.jal rd off, .jalr rd rs1 imm], exec i s = .refused .execItLinkOpen)

/-- spec/41_base_integer.md R68 to R73. -/
def Obligations.ConditionalBranches : Prop :=
  ∀ (s : State) (rs1 rs2 : Reg) (off : BitVec 12), s.mayName [rs1, rs2] = true →
    let a := s.readX s.bits rs1
    let b := s.readX s.bits rs2
    ∀ p ∈ [
        (Instr.beq rs1 rs2 off, decide (a = b)),
        (.bne rs1 rs2 off, decide (a ≠ b)),
        (.blt rs1 rs2 off, decide (a.toInt < b.toInt)),
        (.bge rs1 rs2 off, decide (b.toInt ≤ a.toInt)),
        (.bltu rs1 rs2 off, decide (a.toNat < b.toNat)),
        (.bgeu rs1 rs2 off, decide (b.toNat ≤ a.toNat))],
      Completes p.1 s fun t => WritesNothing s t
        (if p.2 = true then s.pcVal s.bits + (off ++ 0#1).signExtend s.bits else s.npc s.bits 4)

/-- spec/41_base_integer.md R74 to R80. -/
def Obligations.IntegerLoads : Prop :=
  ∀ (s : State) (rd rs1 : Reg) (imm : BitVec 12), s.mayName [rd, rs1] = true →
    let a := s.readX s.bits rs1 + imm.signExtend s.bits
    let done : BitVec s.bits → State → Prop := fun v t => WritesX s t rd v (s.spBad rd v) (s.npc s.bits 4)
    LoadsFrom (.lb rd rs1 imm) s 1 a (fun v => done (v.signExtend s.bits)) ∧
    LoadsFrom (.lh rd rs1 imm) s 2 a (fun v => done (v.signExtend s.bits)) ∧
    LoadsFrom (.lw rd rs1 imm) s 4 a (fun v => done (v.signExtend s.bits)) ∧
    LoadsFrom (.lbu rd rs1 imm) s 1 a (fun v => done (v.setWidth s.bits)) ∧
    LoadsFrom (.lhu rd rs1 imm) s 2 a (fun v => done (v.setWidth s.bits)) ∧
    (s.params.xlen = .rv64 →
      LoadsFrom (.lwu rd rs1 imm) s 4 a (fun v => done (v.setWidth s.bits)) ∧
      LoadsFrom (.ld rd rs1 imm) s 8 a (fun v => done (v.setWidth s.bits)))

/-- spec/41_base_integer.md R81 to R84. The address is that of the state before the store. -/
def Obligations.IntegerStores : Prop :=
  ∀ (s : State) (rs2 rs1 : Reg) (imm : BitVec 12), s.mayName [rs2, rs1] = true →
    let a := s.readX s.bits rs1 + imm.signExtend s.bits
    let v := s.readX s.bits rs2
    StoresTo (.sb rs2 rs1 imm) s 1 a (v.setWidth 8) (s.npc s.bits 4) ∧
    StoresTo (.sh rs2 rs1 imm) s 2 a (v.setWidth 16) (s.npc s.bits 4) ∧
    StoresTo (.sw rs2 rs1 imm) s 4 a (v.setWidth 32) (s.npc s.bits 4) ∧
    (s.params.xlen = .rv64 → StoresTo (.sd rs2 rs1 imm) s 8 a (v.setWidth 64) (s.npc s.bits 4))

/-- spec/41_base_integer.md R113, R114 and spec/42_compressed.md R132. -/
def Obligations.NoEffect : Prop :=
  ∀ (s : State) (fm pred succ : BitVec 4) (rs1 rd : Reg) (imm : BitVec 12),
    Completes (.fence fm pred succ rs1 rd) s (fun t => WritesNothing s t (s.npc s.bits 4)) ∧
    Completes (.fenceI rd rs1 imm) s (fun t => WritesNothing s t (s.npc s.bits 4)) ∧
    Completes .cNop s (fun t => WritesNothing s t (s.npc s.bits 2))

/-- spec/41_base_integer.md R115 and spec/60_exceptions.md R398 to R400. It holds for every answer of the host. That a byte is
admitted where LaunchMem admits a write of size 1 to it is the model's choice (log 12). -/
def Obligations.HostCall : Prop :=
  ∀ s : State,
    let x : Reg → Word := fun r => (s.readX s.bits r).setWidth 64
    let request : HostRequest := ⟨x (if s.params.reducedAbi then 5 else 17), x 10, x 11, x 12, x 13, s.mem⟩
    match Config.hostAnswer s.draws request with
    | .result r writes =>
      Completes .ecall s fun t =>
        (∀ b, t.mem.read b =
          match (writes.filter fun w => w.1 == b && decide (w.1 < 2 ^ s.bits) && s.params.admits w.1 1 .write).getLast? with
          | some w => w.2
          | none => s.mem.read b) ∧
        WritesX { s with mem := t.mem, draws := s.draws + 1 } t 10 (r.setWidth s.bits : BitVec s.bits) false
          (s.npc s.bits 4)
    | .exit => exec .ecall s = .next { s with exited := true, draws := s.draws + 1 }

/-- spec/41_base_integer.md R116, spec/42_compressed.md R158, spec/60_exceptions.md R382: taking an exception is a halt. -/
def Obligations.Breakpoints : Prop :=
  ∀ s : State, exec .ebreak s = .next (s.haltedFor .breakpoint) ∧ exec .cEbreak s = .next (s.haltedFor .breakpoint)

/-- spec/41_base_integer.md R117 to R122, with CsrRead and CsrWrite as CsrFile states them. -/
def Obligations.CsrInstructions : Prop :=
  ∀ (s : State) (rd rs1 : Reg) (uimm : BitVec 5) (number : BitVec 12) (c : Csr), s.mayName [rd, rs1] = true →
    Csr.ofNumber number = some c → (c.isHighHalf = true → s.params.xlen = .rv32) →
    let old := s.csrValue s.bits c
    let a := s.readX s.bits rs1
    let u : BitVec s.bits := uimm.setWidth s.bits
    ∀ p ∈ [
        (Instr.csrrw rd number rs1, a),
        (.csrrs rd number rs1, old ||| a),
        (.csrrc rd number rs1, old &&& ~~~a),
        (.csrrwi rd number uimm, u),
        (.csrrsi rd number uimm, old ||| u),
        (.csrrci rd number uimm, old &&& ~~~u)],
      Completes p.1 s fun t =>
        WritesX (({ s with draws := s.draws + (if s.csrTakesDraw c then 1 else 0) } : State).csrWrite c p.2) t rd old
          (s.spBad rd old) (s.npc s.bits 4)

/-- spec/10_state.md R17, R18, R19. -/
def Obligations.CsrFile : Prop :=
  ∀ (s : State) (v : BitVec s.bits),
    let plain := [Csr.uitb, .ucode, .mvendorid, .marchid, .mimpid, .mhartid]
    let counters := [Csr.cycle, .time, .instret, .cycleh, .timeh, .instreth]
    let low : State → BitVec 8 := fun t => (t.csrValue s.bits .fcsr).setWidth 8
    (low s = s.hart.frm ++ s.hart.fflags) ∧
    (s.csrWrite .fflags v).csrValue s.bits .fflags = (v.setWidth 5).setWidth s.bits ∧
    (s.csrWrite .fflags v).hart.frm = s.hart.frm ∧
    (s.csrWrite .frm v).csrValue s.bits .frm = (v.setWidth 3).setWidth s.bits ∧
    (s.csrWrite .frm v).hart.fflags = s.hart.fflags ∧
    low (s.csrWrite .fcsr v) = v.setWidth 8 ∧
    (v.toNat < 2 ^ 8 → (s.csrWrite .fcsr v).csrValue s.bits .fcsr = v) ∧
    (2 ^ 8 ≤ v.toNat → ((s.csrWrite .fcsr v).csrValue s.bits .fcsr) >>> 8 = (Config.draw s.draws).setWidth s.bits >>> 8) ∧
    (∀ c ∈ plain, (s.csrWrite c v).csrValue s.bits c = v) ∧
    (∀ c ∈ counters, s.csrValue s.bits c = (Config.draw s.draws).setWidth s.bits) ∧
    (∀ c, ∀ d ∈ plain, d ≠ c → (s.csrWrite c v).csrValue s.bits d = s.csrValue s.bits d) ∧
    (∀ c ∈ plain ++ counters, (s.csrWrite c v).csrValue s.bits .fcsr = s.csrValue s.bits .fcsr) ∧
    (∀ c, ∃ h, s.csrWrite c v = { s with hart := h } ∧ h.x = s.hart.x ∧ h.f = s.hart.f ∧ h.pc = s.hart.pc ∧
      h.status = s.hart.status ∧ h.te = s.hart.te)

/-- spec/10_state.md R17, R20. -/
def Obligations.CsrStops : Prop :=
  ∀ (s : State) (rd rs1 : Reg) (uimm : BitVec 5) (number : BitVec 12), s.mayName [rd, rs1] = true →
    ∀ i ∈ [Instr.csrrw rd number rs1, .csrrs rd number rs1, .csrrc rd number rs1, .csrrwi rd number uimm,
        .csrrsi rd number uimm, .csrrci rd number uimm],
      (number ∈ [0xC80, 0xC81, 0xC82] → s.params.xlen = .rv64 → exec i s = .next (s.haltedFor .illegalInstruction)) ∧
      (number ∉ [0x001, 0x002, 0x003, 0x800, 0x801, 0xC00, 0xC01, 0xC02, 0xC80, 0xC81, 0xC82, 0xF11, 0xF12, 0xF13, 0xF14] →
        exec i s = .refused .unknownCsr)

/-- spec/42_compressed.md R123, R133, R135 to R147, R151, R157, R160. -/
def Obligations.CompressedArithmetic : Prop :=
  ∀ (s : State) (rd rs2 : Reg) (cd cs : CReg) (imm : BitVec 6) (nz : BitVec 8), s.mayName [rd, rs2] = true →
    let x := s.readX s.bits
    let w : Reg → BitVec 32 := fun r => (x r).setWidth 32
    let done : Instr × Reg × BitVec s.bits → Prop := fun p =>
      Completes p.1 s fun t => WritesX s t p.2.1 p.2.2 (s.spBad p.2.1 p.2.2) (s.npc s.bits 2)
    (∀ p ∈ [
        (Instr.cAddi4spn cd nz, cd.reg, x 2 + (nz ++ 0#2).setWidth s.bits),
        (.cAddi rd imm, rd, x rd + imm.signExtend s.bits),
        (.cLi rd imm, rd, imm.signExtend s.bits),
        (.cAddi16sp imm, 2, x 2 + (imm ++ 0#4).signExtend s.bits),
        (.cLui rd imm, rd, (imm ++ 0#12).signExtend s.bits),
        (.cAndi cd imm, cd.reg, x cd.reg &&& imm.signExtend s.bits),
        (.cSub cd cs, cd.reg, x cd.reg - x cs.reg),
        (.cXor cd cs, cd.reg, x cd.reg ^^^ x cs.reg),
        (.cOr cd cs, cd.reg, x cd.reg ||| x cs.reg),
        (.cAnd cd cs, cd.reg, x cd.reg &&& x cs.reg),
        (.cMv rd rs2, rd, x rs2),
        (.cAdd rd rs2, rd, x rd + x rs2)], done p) ∧
    (imm.toNat < s.bits → ∀ p ∈ [
        (Instr.cSlli rd imm, rd, x rd <<< imm.toNat),
        (.cSrli cd imm, cd.reg, x cd.reg >>> imm.toNat),
        (.cSrai cd imm, cd.reg, (x cd.reg).sshiftRight imm.toNat)], done p) ∧
    (s.params.xlen = .rv64 → ∀ p ∈ [
        (Instr.cAddiw rd imm, rd, (w rd + imm.signExtend 32).signExtend s.bits),
        (.cSubw cd cs, cd.reg, (w cd.reg - w cs.reg).signExtend s.bits),
        (.cAddw cd cs, cd.reg, (w cd.reg + w cs.reg).signExtend s.bits)], done p)

/-- spec/42_compressed.md R125, R127, R129, R131, R153, R155, R162, R164. -/
def Obligations.CompressedIntegerMemory : Prop :=
  ∀ (s : State) (r : Reg) (cr cs : CReg) (u5 : BitVec 5) (u6 : BitVec 6), s.mayName [r] = true →
    let n := s.bits
    let x := s.readX n
    let w5 : BitVec n := x cs.reg + (u5 ++ 0#2).setWidth n
    let d5 : BitVec n := x cs.reg + (u5 ++ 0#3).setWidth n
    let w6 : BitVec n := x 2 + (u6 ++ 0#2).setWidth n
    let d6 : BitVec n := x 2 + (u6 ++ 0#3).setWidth n
    let done : Reg → BitVec n → State → Prop := fun q v t => WritesX s t q v (s.spBad q v) (s.npc n 2)
    LoadsFrom (.cLw cr cs u5) s 4 w5 (fun v => done cr.reg (v.signExtend n)) ∧
    LoadsFrom (.cLwsp r u6) s 4 w6 (fun v => done r (v.signExtend n)) ∧
    StoresTo (.cSw cr cs u5) s 4 w5 ((x cr.reg).setWidth 32) (s.npc n 2) ∧
    StoresTo (.cSwsp r u6) s 4 w6 ((x r).setWidth 32) (s.npc n 2) ∧
    (s.params.xlen = .rv64 →
      LoadsFrom (.cLd cr cs u5) s 8 d5 (fun v => done cr.reg (v.setWidth n)) ∧
      LoadsFrom (.cLdsp r u6) s 8 d6 (fun v => done r (v.setWidth n)) ∧
      StoresTo (.cSd cr cs u5) s 8 d5 ((x cr.reg).setWidth 64) (s.npc n 2) ∧
      StoresTo (.cSdsp r u6) s 8 d6 ((x r).setWidth 64) (s.npc n 2))

/-- spec/42_compressed.md R124, R126, R128, R130, R152, R154, R161, R163. -/
def Obligations.CompressedFloatMemory : Prop :=
  ∀ (s : State) (r : Reg) (cr cs : CReg) (u5 : BitVec 5) (u6 : BitVec 6),
    let n := s.bits
    let x := s.readX n
    let w5 : BitVec n := x cs.reg + (u5 ++ 0#2).setWidth n
    let d5 : BitVec n := x cs.reg + (u5 ++ 0#3).setWidth n
    let w6 : BitVec n := x 2 + (u6 ++ 0#2).setWidth n
    let d6 : BitVec n := x 2 + (u6 ++ 0#3).setWidth n
    LoadsFrom (.cFld cr cs u5) s 8 d5 (fun v t => WritesF s t .d cr.reg v 0 (s.npc n 2)) ∧
    LoadsFrom (.cFldsp r u6) s 8 d6 (fun v t => WritesF s t .d r v 0 (s.npc n 2)) ∧
    StoresTo (.cFsd cr cs u5) s 8 d5 (s.readF .d cr.reg) (s.npc n 2) ∧
    StoresTo (.cFsdsp r u6) s 8 d6 (s.readF .d r) (s.npc n 2) ∧
    (s.params.xlen = .rv32 →
      LoadsFrom (.cFlw cr cs u5) s 4 w5 (fun v t => WritesF s t .s cr.reg v 0 (s.npc n 2)) ∧
      LoadsFrom (.cFlwsp r u6) s 4 w6 (fun v t => WritesF s t .s r v 0 (s.npc n 2)) ∧
      StoresTo (.cFsw cr cs u5) s 4 w5 (s.readF .s cr.reg) (s.npc n 2) ∧
      StoresTo (.cFswsp r u6) s 4 w6 (s.readF .s r) (s.npc n 2))

/-- spec/42_compressed.md R134, R148 to R150, R156, R159. -/
def Obligations.CompressedControl : Prop :=
  ∀ (s : State) (r : Reg) (cr : CReg) (off : BitVec 11) (off8 : BitVec 8), s.mayName [r] = true →
    let pc := s.pcVal s.bits
    let near := pc + (off ++ 0#1).signExtend s.bits
    let near8 := pc + (off8 ++ 0#1).signExtend s.bits
    let far := s.readX s.bits r &&& ~~~1
    let zero := s.readX s.bits cr.reg = 0
    Completes (.cJ off) s (fun t => WritesNothing s t near) ∧
    Completes (.cJr r) s (fun t => WritesNothing s t far) ∧
    (zero → Completes (.cBeqz cr off8) s (fun t => WritesNothing s t near8) ∧
      Completes (.cBnez cr off8) s (fun t => WritesNothing s t (s.npc s.bits 2))) ∧
    (¬zero → Completes (.cBeqz cr off8) s (fun t => WritesNothing s t (s.npc s.bits 2)) ∧
      Completes (.cBnez cr off8) s (fun t => WritesNothing s t near8)) ∧
    Completes (.cJalr r) s (fun t => WritesX s t 1 (pc + 2) false far) ∧
    (s.params.xlen = .rv32 → Completes (.cJal off) s (fun t => WritesX s t 1 (pc + 2) false near))

/-- spec/43_muldiv.md R165 to R172. MIN by -1 has remainder 0 in `tmod` too. -/
def Obligations.MultiplyDivide : Prop :=
  ∀ (s : State) (rd rs1 rs2 : Reg), s.mayName [rd, rs1, rs2] = true →
    let n := s.bits
    let a := s.readX n rs1
    let b := s.readX n rs2
    ∀ p ∈ [
        (Instr.mul rd rs1 rs2, a * b),
        (.mulh rd rs1 rs2, BitVec.ofInt n (a.toInt * b.toInt / 2 ^ n)),
        (.mulhsu rd rs1 rs2, BitVec.ofInt n (a.toInt * (b.toNat : Int) / 2 ^ n)),
        (.mulhu rd rs1 rs2, BitVec.ofNat n (a.toNat * b.toNat / 2 ^ n)),
        (.div rd rs1 rs2,
          if b = 0 then BitVec.allOnes n else if a.toInt = -2 ^ (n - 1) ∧ b.toInt = -1 then a else BitVec.ofInt n (a.toInt.tdiv b.toInt)),
        (.divu rd rs1 rs2, if b = 0 then BitVec.allOnes n else BitVec.ofNat n (a.toNat / b.toNat)),
        (.rem rd rs1 rs2, if b = 0 then a else BitVec.ofInt n (a.toInt.tmod b.toInt)),
        (.remu rd rs1 rs2, if b = 0 then a else BitVec.ofNat n (a.toNat % b.toNat))],
      Completes p.1 s fun t => WritesX s t rd p.2 false (s.npc n 4)

/-- spec/43_muldiv.md R173 to R177. -/
def Obligations.MultiplyDivideWord : Prop :=
  ∀ (s : State) (rd rs1 rs2 : Reg), s.params.xlen = .rv64 → s.mayName [rd, rs1, rs2] = true →
    let a : BitVec 32 := (s.readX s.bits rs1).setWidth 32
    let b : BitVec 32 := (s.readX s.bits rs2).setWidth 32
    ∀ p ∈ [
        (Instr.mulw rd rs1 rs2, a * b),
        (.divw rd rs1 rs2,
          if b = 0 then BitVec.allOnes 32 else if a.toInt = -2 ^ (32 - 1) ∧ b.toInt = -1 then a else BitVec.ofInt 32 (a.toInt.tdiv b.toInt)),
        (.divuw rd rs1 rs2, if b = 0 then BitVec.allOnes 32 else BitVec.ofNat 32 (a.toNat / b.toNat)),
        (.remw rd rs1 rs2, if b = 0 then a else BitVec.ofInt 32 (a.toInt.tmod b.toInt)),
        (.remuw rd rs1 rs2, if b = 0 then a else BitVec.ofNat 32 (a.toNat % b.toNat))],
      Completes p.1 s fun t => WritesX s t rd ((p.2 : BitVec 32).signExtend s.bits) false (s.npc s.bits 4)

/-- spec/44_atomic.md R178, R182, R193. -/
def Obligations.LoadReserved : Prop :=
  ∀ (s : State) (rd rs1 : Reg) (aq rl : BitVec 1), s.mayName [rd, rs1] = true →
    let a := s.readX s.bits rs1
    let done : BitVec s.bits → State → Prop := fun v t =>
      (∀ b, b ∈ t.resv ↔ b = a.toNat ∨ b ∈ s.resv) ∧ WritesX { s with resv := t.resv } t rd v false (s.npc s.bits 4)
    LoadsFrom (.lrW rd rs1 aq rl) s 4 a (fun v => done (v.signExtend s.bits)) ∧
    (s.params.xlen = .rv64 → LoadsFrom (.lrD rd rs1 aq rl) s 8 a (fun v => done (v.setWidth s.bits)))

/-- spec/44_atomic.md R179, R183, R194. -/
def Obligations.StoreConditional : Prop :=
  ∀ (s : State) (rd rs2 rs1 : Reg) (aq rl : BitVec 1), s.mayName [rd, rs2, rs1] = true →
    let a := s.readX s.bits rs1
    let rule : (k : Nat) → BitVec (8 * k) → Instr → Prop := fun k v i =>
      (a.toNat ∉ s.resv → Completes i s fun t => WritesX s t rd 1 false (s.npc s.bits 4)) ∧
      (a.toNat ∈ s.resv → s.params.admits a.toNat k .write = true → Completes i s fun t =>
        StoresBytes s t a v ∧ (∀ b, b ∈ t.resv ↔ b ≠ a.toNat ∧ b ∈ s.resv) ∧
        WritesX { s with mem := t.mem, resv := t.resv } t rd 0 false (s.npc s.bits 4)) ∧
      (a.toNat ∈ s.resv → s.params.admits a.toNat k .write = false → exec i s = .next s.nowStuck)
    rule 4 ((s.readX s.bits rs2).setWidth 32) (.scW rd rs2 rs1 aq rl) ∧
    (s.params.xlen = .rv64 → rule 8 ((s.readX s.bits rs2).setWidth 64) (.scD rd rs2 rs1 aq rl))

/-- spec/44_atomic.md R184 to R192, R195 to R203. -/
def Obligations.AtomicUpdates : Prop :=
  ∀ (s : State) (rd rs2 rs1 : Reg) (aq rl : BitVec 1), s.mayName [rd, rs2, rs1] = true →
    let a := s.readX s.bits rs1
    let rule : (k : Nat) → BitVec (8 * k) → Instr × (BitVec (8 * k) → BitVec (8 * k) → BitVec (8 * k)) → Prop :=
      fun k v p =>
        let old := s.mem.load a k
        (s.params.admits a.toNat k .read = true → s.params.admits a.toNat k .write = true → Completes p.1 s fun t =>
          StoresBytes s t a (p.2 old v) ∧
          WritesX { s with mem := t.mem } t rd (old.signExtend s.bits) false (s.npc s.bits 4)) ∧
        (s.params.admits a.toNat k .read = false ∨ s.params.admits a.toNat k .write = false →
          exec p.1 s = .next s.nowStuck)
    (∀ p ∈ [
        (Instr.amoswapW rd rs2 rs1 aq rl, fun _ v => v),
        (.amoaddW rd rs2 rs1 aq rl, fun old v => old + v),
        (.amoxorW rd rs2 rs1 aq rl, fun old v => old ^^^ v),
        (.amoandW rd rs2 rs1 aq rl, fun old v => old &&& v),
        (.amoorW rd rs2 rs1 aq rl, fun old v => old ||| v),
        (.amominW rd rs2 rs1 aq rl, fun old v => if old.toInt < v.toInt then old else v),
        (.amomaxW rd rs2 rs1 aq rl, fun old v => if old.toInt > v.toInt then old else v),
        (.amominuW rd rs2 rs1 aq rl, fun old v => if old.toNat < v.toNat then old else v),
        (.amomaxuW rd rs2 rs1 aq rl, fun old v => if old.toNat > v.toNat then old else v)], rule 4 ((s.readX s.bits rs2).setWidth 32) p) ∧
    (s.params.xlen = .rv64 → ∀ p ∈ [
        (Instr.amoswapD rd rs2 rs1 aq rl, fun _ v => v),
        (.amoaddD rd rs2 rs1 aq rl, fun old v => old + v),
        (.amoxorD rd rs2 rs1 aq rl, fun old v => old ^^^ v),
        (.amoandD rd rs2 rs1 aq rl, fun old v => old &&& v),
        (.amoorD rd rs2 rs1 aq rl, fun old v => old ||| v),
        (.amominD rd rs2 rs1 aq rl, fun old v => if old.toInt < v.toInt then old else v),
        (.amomaxD rd rs2 rs1 aq rl, fun old v => if old.toInt > v.toInt then old else v),
        (.amominuD rd rs2 rs1 aq rl, fun old v => if old.toNat < v.toNat then old else v),
        (.amomaxuD rd rs2 rs1 aq rl, fun old v => if old.toNat > v.toNat then old else v)], rule 8 ((s.readX s.bits rs2).setWidth 64) p)

/-- spec/45_float.md R208, R209, R238, R239 and spec/46_float_half_bf16.md R270, R271; bits 127:64 by spec/10_state.md R16
(log 11). -/
def Obligations.FloatMemory : Prop :=
  ∀ (s : State) (r rs1 : Reg) (imm : BitVec 12), s.mayName [rs1] = true →
    let a := s.readX s.bits rs1 + imm.signExtend s.bits
    LoadsFrom (.flh r rs1 imm) s 2 a (fun v t => WritesF s t .h r v 0 (s.npc s.bits 4)) ∧
    LoadsFrom (.flw r rs1 imm) s 4 a (fun v t => WritesF s t .s r v 0 (s.npc s.bits 4)) ∧
    LoadsFrom (.fld r rs1 imm) s 8 a (fun v t => WritesF s t .d r v 0 (s.npc s.bits 4)) ∧
    StoresTo (.fsh r rs1 imm) s 2 a (s.readF .h r) (s.npc s.bits 4) ∧
    StoresTo (.fsw r rs1 imm) s 4 a (s.readF .s r) (s.npc s.bits 4) ∧
    StoresTo (.fsd r rs1 imm) s 8 a (s.readF .d r) (s.npc s.bits 4)

/-- spec/45_float.md R204, R205, R210 to R218, R240 to R248 and spec/46_float_half_bf16.md R272 to R280. The values are
free values of Config (log 9): the statement holds whatever they are. -/
def Obligations.FloatRounded : Prop :=
  ∀ (s : State) (rd rs1 rs2 rs3 : Reg) (rm : BitVec 3),
    let f : Fmt → Reg → Word := fun fmt r => (s.readF fmt r).setWidth 64
    let rule : Instr → Fmt → (Rm → FpuCall) → Prop := fun i fmt call =>
      (∀ m, s.rmEff rm = some m → Completes i s fun t =>
        WritesF s t fmt rd ((Config.fpu (call m)).setWidth fmt.bits) (Config.fpuFlags (call m)) (s.npc s.bits 4)) ∧
      (s.rmEff rm = none → exec i s = .refused .reservedRoundingMode)
    (∀ p ∈ [
        (Instr.faddH rd rs1 rs2 rm, Fmt.h, ArithOp.add),
        (.fsubH rd rs1 rs2 rm, .h, .sub),
        (.fmulH rd rs1 rs2 rm, .h, .mul),
        (.fdivH rd rs1 rs2 rm, .h, .div),
        (.faddS rd rs1 rs2 rm, .s, .add),
        (.fsubS rd rs1 rs2 rm, .s, .sub),
        (.fmulS rd rs1 rs2 rm, .s, .mul),
        (.fdivS rd rs1 rs2 rm, .s, .div),
        (.faddD rd rs1 rs2 rm, .d, .add),
        (.fsubD rd rs1 rs2 rm, .d, .sub),
        (.fmulD rd rs1 rs2 rm, .d, .mul),
        (.fdivD rd rs1 rs2 rm, .d, .div)],
      rule p.1 p.2.1 fun m => .arith p.2.1 p.2.2 m (f p.2.1 rs1) (f p.2.1 rs2)) ∧
    (∀ p ∈ [
        (Instr.fmaddH rd rs1 rs2 rs3 rm, Fmt.h, FmaOp.madd),
        (.fmsubH rd rs1 rs2 rs3 rm, .h, .msub),
        (.fnmsubH rd rs1 rs2 rs3 rm, .h, .nmsub),
        (.fnmaddH rd rs1 rs2 rs3 rm, .h, .nmadd),
        (.fmaddS rd rs1 rs2 rs3 rm, .s, .madd),
        (.fmsubS rd rs1 rs2 rs3 rm, .s, .msub),
        (.fnmsubS rd rs1 rs2 rs3 rm, .s, .nmsub),
        (.fnmaddS rd rs1 rs2 rs3 rm, .s, .nmadd),
        (.fmaddD rd rs1 rs2 rs3 rm, .d, .madd),
        (.fmsubD rd rs1 rs2 rs3 rm, .d, .msub),
        (.fnmsubD rd rs1 rs2 rs3 rm, .d, .nmsub),
        (.fnmaddD rd rs1 rs2 rs3 rm, .d, .nmadd)],
      rule p.1 p.2.1 fun m => .fma p.2.1 p.2.2 m (f p.2.1 rs1) (f p.2.1 rs2) (f p.2.1 rs3)) ∧
    (∀ p ∈ [
        (Instr.fsqrtH rd rs1 rm, Fmt.h),
        (.fsqrtS rd rs1 rm, .s),
        (.fsqrtD rd rs1 rm, .d)],
      rule p.1 p.2 fun m => .sqrt p.2 m (f p.2 rs1))

/-- spec/45_float.md R219 to R221, R249 to R251 and spec/46_float_half_bf16.md R281 to R283. -/
def Obligations.FloatSigns : Prop :=
  ∀ (s : State) (rd rs1 rs2 : Reg),
    ∀ p ∈ [
        (Instr.fsgnjH rd rs1 rs2, Fmt.h, fun _ b => b),
        (.fsgnjnH rd rs1 rs2, .h, fun _ b => !b),
        (.fsgnjxH rd rs1 rs2, .h, fun a b => a != b),
        (.fsgnjS rd rs1 rs2, .s, fun _ b => b),
        (.fsgnjnS rd rs1 rs2, .s, fun _ b => !b),
        (.fsgnjxS rd rs1 rs2, .s, fun a b => a != b),
        (.fsgnjD rd rs1 rs2, .d, fun _ b => b),
        (.fsgnjnD rd rs1 rs2, .d, fun _ b => !b),
        (.fsgnjxD rd rs1 rs2, .d, fun a b => a != b)],
      let fmt : Fmt := p.2.1
      let a := s.readF fmt rs1
      let b := s.readF fmt rs2
      ∃ v : BitVec fmt.bits,
        v.msb = p.2.2 a.msb b.msb ∧ (∀ i, i < fmt.bits - 1 → v.getLsbD i = a.getLsbD i) ∧
        Completes p.1 s fun t => WritesF s t fmt rd v 0 (s.npc s.bits 4)

/-- spec/45_float.md R222, R223, R252, R253 and spec/46_float_half_bf16.md R284, R285. -/
def Obligations.FloatMinMax : Prop :=
  ∀ (s : State) (rd rs1 rs2 : Reg),
    ∀ p ∈ [
        (Instr.fminH rd rs1 rs2, Fmt.h, MinMaxOp.min),
        (.fmaxH rd rs1 rs2, .h, .max),
        (.fminS rd rs1 rs2, .s, .min),
        (.fmaxS rd rs1 rs2, .s, .max),
        (.fminD rd rs1 rs2, .d, .min),
        (.fmaxD rd rs1 rs2, .d, .max)],
      let fmt : Fmt := p.2.1
      let a := s.readF fmt rs1
      let b := s.readF fmt rs2
      let call := FpuCall.minmax fmt p.2.2 (a.setWidth 64) (b.setWidth 64)
      let special := isNan fmt a = true ∨ isNan fmt b = true ∨ isZero fmt a = true ∧ isZero fmt b = true ∧ a.msb ≠ b.msb
      ∃ v : BitVec fmt.bits,
        (special → v = (Config.fpu call).setWidth fmt.bits) ∧
        (¬special → (v = a ∨ v = b) ∧
          match p.2.2 with
          | .min => orderKey fmt v ≤ orderKey fmt a ∧ orderKey fmt v ≤ orderKey fmt b
          | .max => orderKey fmt a ≤ orderKey fmt v ∧ orderKey fmt b ≤ orderKey fmt v) ∧
        Completes p.1 s fun t => WritesF s t fmt rd v (Config.fpuFlags call) (s.npc s.bits 4)

/-- spec/45_float.md R224 to R226, R254 to R256 and spec/46_float_half_bf16.md R286 to R288. -/
def Obligations.FloatCompare : Prop :=
  ∀ (s : State) (rd rs1 rs2 : Reg), s.mayName [rd] = true →
    ∀ p ∈ [
        (Instr.feqH rd rs1 rs2, Fmt.h, CmpOp.eq),
        (.fltH rd rs1 rs2, .h, .lt),
        (.fleH rd rs1 rs2, .h, .le),
        (.feqS rd rs1 rs2, .s, .eq),
        (.fltS rd rs1 rs2, .s, .lt),
        (.fleS rd rs1 rs2, .s, .le),
        (.feqD rd rs1 rs2, .d, .eq),
        (.fltD rd rs1 rs2, .d, .lt),
        (.fleD rd rs1 rs2, .d, .le)],
      let fmt : Fmt := p.2.1
      let a := s.readF fmt rs1
      let b := s.readF fmt rs2
      let value : BitVec fmt.bits → Int := fun v =>
        if v.msb then -(v.toNat % 2 ^ (fmt.bits - 1) : Nat) else (v.toNat % 2 ^ (fmt.bits - 1) : Nat)
      let holds := isNan fmt a = false ∧ isNan fmt b = false ∧
        match p.2.2 with
        | .eq => value a = value b
        | .lt => value a < value b
        | .le => value a ≤ value b
      let flags := Config.fpuFlags (.compare fmt p.2.2 (a.setWidth 64) (b.setWidth 64))
      ∃ v : BitVec s.bits, (holds → v = 1) ∧ (¬holds → v = 0) ∧
        Completes p.1 s fun t =>
          WritesX { s with hart := { s.hart with fflags := s.hart.fflags ||| flags } } t rd v false (s.npc s.bits 4)

/-- spec/45_float.md R206, R227, R257 and spec/46_float_half_bf16.md R289. -/
def Obligations.FloatClass : Prop :=
  ∀ (s : State) (rd rs1 : Reg), s.mayName [rd] = true →
    ∀ p ∈ [(Instr.fclassH rd rs1, Fmt.h), (.fclassS rd rs1, .s), (.fclassD rd rs1, .d)],
      let fmt : Fmt := p.2
      let v := s.readF fmt rs1
      let e := expField fmt v
      let m := fracField fmt v
      let top := maxExp fmt
      ∀ q ∈ [
          (0, e = top ∧ m = 0 ∧ v.msb = true), (1, e ≠ top ∧ e ≠ 0 ∧ v.msb = true), (2, e = 0 ∧ m ≠ 0 ∧ v.msb = true),
          (3, e = 0 ∧ m = 0 ∧ v.msb = true), (4, e = 0 ∧ m = 0 ∧ v.msb = false), (5, e = 0 ∧ m ≠ 0 ∧ v.msb = false),
          (6, e ≠ top ∧ e ≠ 0 ∧ v.msb = false), (7, e = top ∧ m = 0 ∧ v.msb = false),
          (8, e = top ∧ m ≠ 0 ∧ m < 2 ^ (fracBits fmt - 1)), (9, e = top ∧ 2 ^ (fracBits fmt - 1) ≤ m)],
        q.2 → Completes p.1 s fun t => WritesX s t rd (BitVec.ofNat s.bits (2 ^ q.1)) false (s.npc s.bits 4)

/-- spec/45_float.md R228, R230, R232, R234, R258 to R264 and spec/46_float_half_bf16.md R290 to R296; the exact cases are
the model's reading (log 10). -/
def Obligations.FloatToInteger : Prop :=
  ∀ (s : State) (rd rs1 : Reg) (rm : BitVec 3), s.mayName [rd] = true →
    ∀ p ∈ [
        (Instr.fcvtWH rd rs1 rm, Fmt.h, IntKind.s32),
        (.fcvtWuH rd rs1 rm, .h, .u32),
        (.fcvtLH rd rs1 rm, .h, .s64),
        (.fcvtLuH rd rs1 rm, .h, .u64),
        (.fcvtWS rd rs1 rm, .s, .s32),
        (.fcvtWuS rd rs1 rm, .s, .u32),
        (.fcvtLS rd rs1 rm, .s, .s64),
        (.fcvtLuS rd rs1 rm, .s, .u64),
        (.fcvtWD rd rs1 rm, .d, .s32),
        (.fcvtWuD rd rs1 rm, .d, .u32),
        (.fcvtLD rd rs1 rm, .d, .s64),
        (.fcvtLuD rd rs1 rm, .d, .u64)],
      let fmt : Fmt := p.2.1
      let kind : IntKind := p.2.2
      let a := s.readF fmt rs1
      let call : Rm → FpuCall := fun m => .toInt fmt kind m (a.setWidth 64)
      (kind.bits = 64 → s.params.xlen = .rv64) →
      (∀ m, s.rmEff rm = some m →
        let r : BitVec kind.bits := (exactToInt fmt kind a).getD ((Config.fpu (call m)).setWidth kind.bits)
        Completes p.1 s fun t =>
          WritesX { s with hart := { s.hart with fflags := s.hart.fflags ||| Config.fpuFlags (call m) } } t rd
            (r.signExtend s.bits) false (s.npc s.bits 4)) ∧
      (s.rmEff rm = none → exec p.1 s = .refused .reservedRoundingMode)

/-- spec/45_float.md R229, R231, R233, R235, R259 to R265 and spec/46_float_half_bf16.md R291 to R297. That an
integer the format holds is exact at its own bit pattern is the model's reading (log 10), and that the integer 0 gives +0 is
the model's choice (log 27). -/
def Obligations.FloatFromInteger : Prop :=
  ∀ (s : State) (rd rs1 : Reg) (rm : BitVec 3), s.mayName [rs1] = true →
    ∀ p ∈ [
        (Instr.fcvtHW rd rs1 rm, Fmt.h, IntKind.s32),
        (.fcvtHWu rd rs1 rm, .h, .u32),
        (.fcvtHL rd rs1 rm, .h, .s64),
        (.fcvtHLu rd rs1 rm, .h, .u64),
        (.fcvtSW rd rs1 rm, .s, .s32),
        (.fcvtSWu rd rs1 rm, .s, .u32),
        (.fcvtSL rd rs1 rm, .s, .s64),
        (.fcvtSLu rd rs1 rm, .s, .u64),
        (.fcvtDW rd rs1 rm, .d, .s32),
        (.fcvtDWu rd rs1 rm, .d, .u32),
        (.fcvtDL rd rs1 rm, .d, .s64),
        (.fcvtDLu rd rs1 rm, .d, .u64)],
      let fmt : Fmt := p.2.1
      let kind : IntKind := p.2.2
      let a : BitVec kind.bits := (s.readX s.bits rs1).setWidth kind.bits
      let call : Rm → FpuCall := fun m => .fromInt fmt kind m (a.setWidth 64)
      (kind.bits = 64 → s.params.xlen = .rv64) →
      (∀ m, s.rmEff rm = some m → Completes p.1 s fun t =>
        WritesF s t fmt rd ((exactFromInt fmt kind a).getD ((Config.fpu (call m)).setWidth fmt.bits))
          (Config.fpuFlags (call m)) (s.npc s.bits 4)) ∧
      (s.rmEff rm = none → exec p.1 s = .refused .reservedRoundingMode)

/-- spec/45_float.md R268, R269 and spec/46_float_half_bf16.md R300 to R303; the exact narrowing is the model's reading
(log 10) and the sign of a converted zero its choice (log 27). -/
def Obligations.FloatFormats : Prop :=
  ∀ (s : State) (rd rs1 : Reg) (rm : BitVec 3),
    ∀ p ∈ [
        (Instr.fcvtSD rd rs1 rm, Fmt.d, Fmt.s),
        (.fcvtDS rd rs1 rm, .s, .d),
        (.fcvtSH rd rs1 rm, .h, .s),
        (.fcvtHS rd rs1 rm, .s, .h),
        (.fcvtDH rd rs1 rm, .h, .d),
        (.fcvtHD rd rs1 rm, .d, .h)],
      let src : Fmt := p.2.1
      let dst : Fmt := p.2.2
      let a := s.readF src rs1
      let call : Rm → FpuCall := fun m => .convert src dst m (a.setWidth 64)
      (∀ m, s.rmEff rm = some m → Completes p.1 s fun t =>
        WritesF s t dst rd ((exactConvert src dst a).getD ((Config.fpu (call m)).setWidth dst.bits))
          (Config.fpuFlags (call m)) (s.npc s.bits 4)) ∧
      (s.rmEff rm = none → exec p.1 s = .refused .reservedRoundingMode)

/-- spec/45_float.md R236, R237, R266, R267 and spec/46_float_half_bf16.md R298, R299, R304, R305. That bits 127:64 stay is
spec/10_state.md R16; the corner case of R267 speaks of a draw there, and not following it is the model's reading (log 11). -/
def Obligations.FloatMovesAndBf16 : Prop :=
  ∀ (s : State) (rd rs1 : Reg),
    (s.mayName [rd] = true →
      let moved : {w : Nat} → Instr → BitVec w → Prop := fun i v =>
        Completes i s fun t => WritesX s t rd (v.signExtend s.bits) false (s.npc s.bits 4)
      moved (.fmvXH rd rs1) (s.readF .h rs1) ∧ moved (.fmvXW rd rs1) (s.readF .s rs1) ∧
      (s.params.xlen = .rv64 → moved (.fmvXD rd rs1) (s.readF .d rs1))) ∧
    (s.mayName [rs1] = true →
      let moved : Instr → Fmt → Prop := fun i fmt =>
        Completes i s fun t => WritesF s t fmt rd ((s.readX s.bits rs1).setWidth fmt.bits) 0 (s.npc s.bits 4)
      moved (.fmvHX rd rs1) .h ∧ moved (.fmvWX rd rs1) .s ∧ (s.params.xlen = .rv64 → moved (.fmvDX rd rs1) .d)) ∧
    Completes (.fcvtSBf16 rd rs1) s (fun t => WritesF s t .s rd (s.readF .h rs1 ++ 0#16) 0 (s.npc s.bits 4)) ∧
    (∀ m, roundingMode s.hart.frm = some m →
      let call := FpuCall.toBF16 m ((s.readF .s rs1).setWidth 64)
      Completes (.fcvtBf16S rd rs1) s fun t =>
        WritesF s t .h rd ((Config.fpu call).setWidth 16) (Config.fpuFlags call) (s.npc s.bits 4)) ∧
    (roundingMode s.hart.frm = none → exec (.fcvtBf16S rd rs1) s = .refused .reservedRoundingMode)

/-- spec/45_float.md R205. -/
def Obligations.RoundingModes : Prop :=
  ∀ (s : State) (rd rs1 rs2 rs3 : Reg) (rm : BitVec 3),
    let modes := [some Rm.rne, some .rtz, some .rdn, some .rup, some .rmm, none, none, none]
    (rm ≠ 7 → some (s.rmEff rm) = modes[rm.toNat]?) ∧ (rm = 7 → some (s.rmEff rm) = modes[s.hart.frm.toNat]?) ∧
    (s.rmEff rm = none → ∀ i ∈ [
        Instr.fcvtSD rd rs1 rm,
        .fcvtDS rd rs1 rm,
        .fcvtSH rd rs1 rm,
        .fcvtHS rd rs1 rm,
        .fcvtDH rd rs1 rm,
        .fcvtHD rd rs1 rm,
        .fmaddS rd rs1 rs2 rs3 rm,
        .fmsubS rd rs1 rs2 rs3 rm,
        .fnmsubS rd rs1 rs2 rs3 rm,
        .fnmaddS rd rs1 rs2 rs3 rm,
        .faddS rd rs1 rs2 rm,
        .fsubS rd rs1 rs2 rm,
        .fmulS rd rs1 rs2 rm,
        .fdivS rd rs1 rs2 rm,
        .fsqrtS rd rs1 rm,
        .fcvtWS rd rs1 rm,
        .fcvtSW rd rs1 rm,
        .fcvtWuS rd rs1 rm,
        .fcvtSWu rd rs1 rm,
        .fcvtLS rd rs1 rm,
        .fcvtSL rd rs1 rm,
        .fcvtLuS rd rs1 rm,
        .fcvtSLu rd rs1 rm,
        .fmaddD rd rs1 rs2 rs3 rm,
        .fmsubD rd rs1 rs2 rs3 rm,
        .fnmsubD rd rs1 rs2 rs3 rm,
        .fnmaddD rd rs1 rs2 rs3 rm,
        .faddD rd rs1 rs2 rm,
        .fsubD rd rs1 rs2 rm,
        .fmulD rd rs1 rs2 rm,
        .fdivD rd rs1 rs2 rm,
        .fsqrtD rd rs1 rm,
        .fcvtWD rd rs1 rm,
        .fcvtDW rd rs1 rm,
        .fcvtWuD rd rs1 rm,
        .fcvtDWu rd rs1 rm,
        .fcvtLD rd rs1 rm,
        .fcvtDL rd rs1 rm,
        .fcvtLuD rd rs1 rm,
        .fcvtDLu rd rs1 rm,
        .fmaddH rd rs1 rs2 rs3 rm,
        .fmsubH rd rs1 rs2 rs3 rm,
        .fnmsubH rd rs1 rs2 rs3 rm,
        .fnmaddH rd rs1 rs2 rs3 rm,
        .faddH rd rs1 rs2 rm,
        .fsubH rd rs1 rs2 rm,
        .fmulH rd rs1 rs2 rm,
        .fdivH rd rs1 rs2 rm,
        .fsqrtH rd rs1 rm,
        .fcvtWH rd rs1 rm,
        .fcvtHW rd rs1 rm,
        .fcvtWuH rd rs1 rm,
        .fcvtHWu rd rs1 rm,
        .fcvtLH rd rs1 rm,
        .fcvtHL rd rs1 rm,
        .fcvtLuH rd rs1 rm,
        .fcvtHLu rd rs1 rm],
      i.existsOn s.params.xlen = true → s.mayName i.xNames = true → exec i s = .refused .reservedRoundingMode)

/-- spec/45_float.md R228, R229, R268, R269: what exact means, by the values the bit patterns stand for (log 10). The
sign of a zero result is the model's choice (log 27). Each conversion is exact where the destination holds the value,
and then gives that value; a widened infinity is the infinity of its sign. -/
def Obligations.ConversionsKeepTheValue : Prop :=
  (∀ (src dst : Fmt) (a : BitVec src.bits) (b : BitVec dst.bits) (x : Finite), unpack src a = some x →
    exactConvert src dst a = some b → ∃ y, unpack dst b = some y ∧ x.negative = y.negative ∧ x.SameNumber y) ∧
  (∀ (src dst : Fmt) (a : BitVec src.bits) (c : BitVec dst.bits) (x z : Finite), unpack src a = some x →
    unpack dst c = some z → x.SameNumber z → (exactConvert src dst a).isSome = true) ∧
  (∀ (src dst : Fmt) (a : BitVec src.bits), src.bits < dst.bits →
    (isNan src a = false → (exactConvert src dst a).isSome = true) ∧
    (isInf src a = true → ∃ b, exactConvert src dst a = some b ∧ isInf dst b = true ∧ b.msb = a.msb)) ∧
  (∀ (fmt : Fmt) (kind : IntKind) (a : BitVec kind.bits) (b : BitVec fmt.bits), exactFromInt fmt kind a = some b →
    ∃ y, unpack fmt b = some y ∧ (Finite.ofInt (kindRead kind a)).negative = y.negative ∧
      (Finite.ofInt (kindRead kind a)).SameNumber y) ∧
  (∀ (fmt : Fmt) (kind : IntKind) (a : BitVec kind.bits) (c : BitVec fmt.bits) (z : Finite), unpack fmt c = some z →
    (Finite.ofInt (kindRead kind a)).SameNumber z → (exactFromInt fmt kind a).isSome = true) ∧
  (∀ (fmt : Fmt) (kind : IntKind) (a : BitVec fmt.bits) (r : BitVec kind.bits) (x : Finite), unpack fmt a = some x →
    exactToInt fmt kind a = some r → x.SameNumber (Finite.ofInt (kindRead kind r))) ∧
  (∀ (fmt : Fmt) (kind : IntKind) (a : BitVec fmt.bits) (x : Finite) (r : BitVec kind.bits), unpack fmt a = some x →
    x.SameNumber (Finite.ofInt (kindRead kind r)) → exactToInt fmt kind a = some r)

/-- spec/47_packed_simd.md R306 to R308, R311 to R313, R316 to R318, R321 to R323. -/
def Obligations.PackedWrapHalve : Prop :=
  ∀ (s : State) (rd rs1 rs2 : Reg), s.mayName [rd, rs1, rs2] = true →
    let x := s.readX s.bits
    (∀ p ∈ [
        (Instr.add16 rd rs1 rs2, fun (a b : BitVec 16) => a + b),
        (.radd16 rd rs1 rs2, fun (a b : BitVec 16) => BitVec.ofInt 16 ((a.toInt + b.toInt) / 2)),
        (.uradd16 rd rs1 rs2, fun (a b : BitVec 16) => BitVec.ofInt 16 (((a.toNat : Int) + (b.toNat : Int)) / 2)),
        (.sub16 rd rs1 rs2, fun (a b : BitVec 16) => a - b),
        (.rsub16 rd rs1 rs2, fun (a b : BitVec 16) => BitVec.ofInt 16 ((a.toInt - b.toInt) / 2)),
        (.ursub16 rd rs1 rs2, fun (a b : BitVec 16) => BitVec.ofInt 16 (((a.toNat : Int) - (b.toNat : Int)) / 2))],
      Completes p.1 s fun t =>
        WritesLanes 16 s t rd (fun i => p.2 (lane 16 (x rs1) i) (lane 16 (x rs2) i)) (fun _ => False)) ∧
    (∀ p ∈ [
        (Instr.add8 rd rs1 rs2, fun (a b : BitVec 8) => a + b),
        (.radd8 rd rs1 rs2, fun (a b : BitVec 8) => BitVec.ofInt 8 ((a.toInt + b.toInt) / 2)),
        (.uradd8 rd rs1 rs2, fun (a b : BitVec 8) => BitVec.ofInt 8 (((a.toNat : Int) + (b.toNat : Int)) / 2)),
        (.sub8 rd rs1 rs2, fun (a b : BitVec 8) => a - b),
        (.rsub8 rd rs1 rs2, fun (a b : BitVec 8) => BitVec.ofInt 8 ((a.toInt - b.toInt) / 2)),
        (.ursub8 rd rs1 rs2, fun (a b : BitVec 8) => BitVec.ofInt 8 (((a.toNat : Int) - (b.toNat : Int)) / 2))],
      Completes p.1 s fun t =>
        WritesLanes 8 s t rd (fun i => p.2 (lane 8 (x rs1) i) (lane 8 (x rs2) i)) (fun _ => False))

/-- spec/47_packed_simd.md R309, R310, R314, R315, R319, R320, R324, R325 and spec/40_helpers.md R58 to R60. -/
def Obligations.PackedSaturate : Prop :=
  ∀ (s : State) (rd rs1 rs2 : Reg), s.mayName [rd, rs1, rs2] = true →
    let x := s.readX s.bits
    (∀ p ∈ [
        ((Instr.kadd16 rd rs1 rs2, (-2 ^ 15 : Int), (2 ^ 15 - 1 : Int)), fun (a b : BitVec 16) => a.toInt + b.toInt),
        ((.ukadd16 rd rs1 rs2, (0 : Int), (2 ^ 16 - 1 : Int)), fun (a b : BitVec 16) => (a.toNat : Int) + (b.toNat : Int)),
        ((.ksub16 rd rs1 rs2, (-2 ^ 15 : Int), (2 ^ 15 - 1 : Int)), fun (a b : BitVec 16) => a.toInt - b.toInt),
        ((.uksub16 rd rs1 rs2, (0 : Int), (2 ^ 16 - 1 : Int)), fun (a b : BitVec 16) => (a.toNat : Int) - (b.toNat : Int))],
      let exact : Nat → Int := fun i => p.2 (lane 16 (x rs1) i) (lane 16 (x rs2) i)
      Completes p.1.1 s fun t => WritesLanes 16 s t rd (fun i => BitVec.ofInt 16 (max p.1.2.1 (min p.1.2.2 (exact i))))
        (fun i => exact i < p.1.2.1 ∨ p.1.2.2 < exact i)) ∧
    (∀ p ∈ [
        ((Instr.kadd8 rd rs1 rs2, (-2 ^ 7 : Int), (2 ^ 7 - 1 : Int)), fun (a b : BitVec 8) => a.toInt + b.toInt),
        ((.ukadd8 rd rs1 rs2, (0 : Int), (2 ^ 8 - 1 : Int)), fun (a b : BitVec 8) => (a.toNat : Int) + (b.toNat : Int)),
        ((.ksub8 rd rs1 rs2, (-2 ^ 7 : Int), (2 ^ 7 - 1 : Int)), fun (a b : BitVec 8) => a.toInt - b.toInt),
        ((.uksub8 rd rs1 rs2, (0 : Int), (2 ^ 8 - 1 : Int)), fun (a b : BitVec 8) => (a.toNat : Int) - (b.toNat : Int))],
      let exact : Nat → Int := fun i => p.2 (lane 8 (x rs1) i) (lane 8 (x rs2) i)
      Completes p.1.1 s fun t => WritesLanes 8 s t rd (fun i => BitVec.ofInt 8 (max p.1.2.1 (min p.1.2.2 (exact i))))
        (fun i => exact i < p.1.2.1 ∨ p.1.2.2 < exact i))

/-- spec/47_packed_simd.md R326 to R335. -/
def Obligations.PackedCrossed : Prop :=
  ∀ (s : State) (rd rs1 rs2 : Reg), s.mayName [rd, rs1, rs2] = true →
    let a : Nat → BitVec 16 := fun i => lane 16 (s.readX s.bits rs1) i
    let b : Nat → BitVec 16 := fun i => lane 16 (s.readX s.bits rs2) i
    (∀ p ∈ [
        ((Instr.cras16 rd rs1 rs2, fun (a b : BitVec 16) => a + b), fun (a b : BitVec 16) => a - b),
        ((.rcras16 rd rs1 rs2, fun (a b : BitVec 16) => BitVec.ofInt 16 ((a.toInt + b.toInt) / 2)), fun (a b : BitVec 16) => BitVec.ofInt 16 ((a.toInt - b.toInt) / 2)),
        ((.urcras16 rd rs1 rs2, fun (a b : BitVec 16) => BitVec.ofInt 16 (((a.toNat : Int) + (b.toNat : Int)) / 2)), fun (a b : BitVec 16) => BitVec.ofInt 16 (((a.toNat : Int) - (b.toNat : Int)) / 2)),
        ((.crsa16 rd rs1 rs2, fun (a b : BitVec 16) => a - b), fun (a b : BitVec 16) => a + b),
        ((.rcrsa16 rd rs1 rs2, fun (a b : BitVec 16) => BitVec.ofInt 16 ((a.toInt - b.toInt) / 2)), fun (a b : BitVec 16) => BitVec.ofInt 16 ((a.toInt + b.toInt) / 2)),
        ((.urcrsa16 rd rs1 rs2, fun (a b : BitVec 16) => BitVec.ofInt 16 (((a.toNat : Int) - (b.toNat : Int)) / 2)), fun (a b : BitVec 16) => BitVec.ofInt 16 (((a.toNat : Int) + (b.toNat : Int)) / 2))],
      Completes p.1.1 s fun t => WritesLanes 16 s t rd
        (fun i => if i % 2 = 1 then p.1.2 (a i) (b (i - 1)) else p.2 (a i) (b (i + 1))) (fun _ => False)) ∧
    (∀ p ∈ [
        ((Instr.kcras16 rd rs1 rs2, (-2 ^ 15 : Int), (2 ^ 15 - 1 : Int)), (fun (a b : BitVec 16) => a.toInt + b.toInt), fun (a b : BitVec 16) => a.toInt - b.toInt),
        ((.ukcras16 rd rs1 rs2, (0 : Int), (2 ^ 16 - 1 : Int)), (fun (a b : BitVec 16) => (a.toNat : Int) + (b.toNat : Int)), fun (a b : BitVec 16) => (a.toNat : Int) - (b.toNat : Int)),
        ((.kcrsa16 rd rs1 rs2, (-2 ^ 15 : Int), (2 ^ 15 - 1 : Int)), (fun (a b : BitVec 16) => a.toInt - b.toInt), fun (a b : BitVec 16) => a.toInt + b.toInt),
        ((.ukcrsa16 rd rs1 rs2, (0 : Int), (2 ^ 16 - 1 : Int)), (fun (a b : BitVec 16) => (a.toNat : Int) - (b.toNat : Int)), fun (a b : BitVec 16) => (a.toNat : Int) + (b.toNat : Int))],
      let exact : Nat → Int := fun i => if i % 2 = 1 then p.2.1 (a i) (b (i - 1)) else p.2.2 (a i) (b (i + 1))
      Completes p.1.1 s fun t => WritesLanes 16 s t rd (fun i => BitVec.ofInt 16 (max p.1.2.1 (min p.1.2.2 (exact i))))
        (fun i => exact i < p.1.2.1 ∨ p.1.2.2 < exact i))

/-- spec/47_packed_simd.md R336 to R349 and spec/40_helpers.md R62. -/
def Obligations.PackedShifts : Prop :=
  ∀ (s : State) (rd rs1 rs2 : Reg) (imm : BitVec 4), s.mayName [rd, rs1, rs2] = true →
    let a : Nat → BitVec 16 := fun i => lane 16 (s.readX s.bits rs1) i
    let k := (s.readX s.bits rs2).toNat % 16
    let up : Instr → (Nat → Nat) → Prop := fun i amount => Completes i s fun t => WritesLanes 16 s t rd
      (fun j => BitVec.ofInt 16 (max (-2 ^ 15) (min (2 ^ 15 - 1) ((a j).toInt * 2 ^ amount j))))
      (fun j => (a j).toInt * 2 ^ amount j < -2 ^ 15 ∨ 2 ^ 15 - 1 < (a j).toInt * 2 ^ amount j)
    (∀ p ∈ [
        (Instr.sra16 rd rs1 rs2, Instr.srai16 rd rs1 imm, fun (a : BitVec 16) (k : Nat) => a.sshiftRight k),
        (.sra16U rd rs1 rs2, .srai16U rd rs1 imm, fun (a : BitVec 16) (k : Nat) => if k = 0 then a else BitVec.ofInt 16 ((a.toInt + 2 ^ (k - 1)) / 2 ^ k)),
        (.srl16 rd rs1 rs2, .srli16 rd rs1 imm, fun (a : BitVec 16) (k : Nat) => a >>> k),
        (.srl16U rd rs1 rs2, .srli16U rd rs1 imm, fun (a : BitVec 16) (k : Nat) => if k = 0 then a else BitVec.ofNat 16 ((a.toNat + 2 ^ (k - 1)) / 2 ^ k)),
        (.sll16 rd rs1 rs2, .slli16 rd rs1 imm, fun (a : BitVec 16) (k : Nat) => a <<< k)],
      Completes p.1 s (fun t => WritesLanes 16 s t rd (fun j => p.2.2 (a j) k) (fun _ => False)) ∧
      Completes p.2.1 s (fun t => WritesLanes 16 s t rd (fun j => p.2.2 (a j) imm.toNat) (fun _ => False))) ∧
    up (.ksll16 rd rs1 rs2) (fun _ => k) ∧ up (.kslli16 rd rs1 imm) (fun _ => imm.toNat) ∧
    let m := ((s.readX s.bits rs2).setWidth 5).toInt
    (0 ≤ m → up (.kslra16 rd rs1 rs2) (fun _ => m.toNat) ∧ up (.kslra16U rd rs1 rs2) (fun _ => m.toNat)) ∧
    (m < 0 →
      let c := min (-m).toNat 15
      Completes (.kslra16 rd rs1 rs2) s
        (fun t => WritesLanes 16 s t rd (fun j => (a j).sshiftRight c) (fun _ => False)) ∧
      Completes (.kslra16U rd rs1 rs2) s
        (fun t => WritesLanes 16 s t rd (fun j => BitVec.ofInt 16 (((a j).toInt + 2 ^ (c - 1)) / 2 ^ c)) (fun _ => False)))

/-- spec/47_packed_simd.md R350 to R359, R364 to R371. -/
def Obligations.PackedCompareSelect : Prop :=
  ∀ (s : State) (rd rs1 rs2 : Reg), s.mayName [rd, rs1, rs2] = true →
    let x := s.readX s.bits
    (∀ p ∈ [
        (Instr.cmpeq16 rd rs1 rs2, fun (a b : BitVec 16) => if a = b then BitVec.allOnes 16 else 0),
        (.scmplt16 rd rs1 rs2, fun (a b : BitVec 16) => if a.toInt < b.toInt then BitVec.allOnes 16 else 0),
        (.scmple16 rd rs1 rs2, fun (a b : BitVec 16) => if a.toInt ≤ b.toInt then BitVec.allOnes 16 else 0),
        (.ucmplt16 rd rs1 rs2, fun (a b : BitVec 16) => if a.toNat < b.toNat then BitVec.allOnes 16 else 0),
        (.ucmple16 rd rs1 rs2, fun (a b : BitVec 16) => if a.toNat ≤ b.toNat then BitVec.allOnes 16 else 0),
        (.smin16 rd rs1 rs2, fun (a b : BitVec 16) => if a.toInt < b.toInt then a else b),
        (.umin16 rd rs1 rs2, fun (a b : BitVec 16) => if a.toNat < b.toNat then a else b),
        (.smax16 rd rs1 rs2, fun (a b : BitVec 16) => if a.toInt > b.toInt then a else b),
        (.umax16 rd rs1 rs2, fun (a b : BitVec 16) => if a.toNat > b.toNat then a else b)],
      Completes p.1 s fun t =>
        WritesLanes 16 s t rd (fun i => p.2 (lane 16 (x rs1) i) (lane 16 (x rs2) i)) (fun _ => False)) ∧
    (∀ p ∈ [
        (Instr.cmpeq8 rd rs1 rs2, fun (a b : BitVec 8) => if a = b then BitVec.allOnes 8 else 0),
        (.scmplt8 rd rs1 rs2, fun (a b : BitVec 8) => if a.toInt < b.toInt then BitVec.allOnes 8 else 0),
        (.scmple8 rd rs1 rs2, fun (a b : BitVec 8) => if a.toInt ≤ b.toInt then BitVec.allOnes 8 else 0),
        (.ucmplt8 rd rs1 rs2, fun (a b : BitVec 8) => if a.toNat < b.toNat then BitVec.allOnes 8 else 0),
        (.ucmple8 rd rs1 rs2, fun (a b : BitVec 8) => if a.toNat ≤ b.toNat then BitVec.allOnes 8 else 0),
        (.smin8 rd rs1 rs2, fun (a b : BitVec 8) => if a.toInt < b.toInt then a else b),
        (.umin8 rd rs1 rs2, fun (a b : BitVec 8) => if a.toNat < b.toNat then a else b),
        (.smax8 rd rs1 rs2, fun (a b : BitVec 8) => if a.toInt > b.toInt then a else b),
        (.umax8 rd rs1 rs2, fun (a b : BitVec 8) => if a.toNat > b.toNat then a else b)],
      Completes p.1 s fun t =>
        WritesLanes 8 s t rd (fun i => p.2 (lane 8 (x rs1) i) (lane 8 (x rs2) i)) (fun _ => False))

/-- spec/47_packed_simd.md R360 to R363, R372 to R375: MIN by MIN is the one product whose shift leaves the lane, so the
clamp is the rule of R61. -/
def Obligations.PackedMultiplyClip : Prop :=
  ∀ (s : State) (rd rs1 rs2 : Reg) (imm : BitVec 4), s.mayName [rd, rs1, rs2] = true →
    let other : Nat → Nat := fun i => if i % 2 = 1 then i - 1 else i + 1
    let clamped : (w : Nat) → Instr → Int → Int → (Nat → Int) → Prop := fun w i lo hi exact =>
      Completes i s fun t => WritesLanes w s t rd (fun j => BitVec.ofInt w (max lo (min hi (exact j))))
        (fun j => exact j < lo ∨ hi < exact j)
    let half : (w : Nat) → Instr → (Nat → Nat) → Prop := fun w i from2 =>
      clamped w i (-2 ^ (w - 1)) (2 ^ (w - 1) - 1) fun j =>
        (lane w (s.readX s.bits rs1) j).toInt * (lane w (s.readX s.bits rs2) (from2 j)).toInt / 2 ^ (w - 1)
    half 16 (.khm16 rd rs1 rs2) id ∧ half 8 (.khm8 rd rs1 rs2) id ∧
    half 16 (.khmx16 rd rs1 rs2) other ∧ half 8 (.khmx8 rd rs1 rs2) other ∧
    clamped 16 (.sclip16 rd rs1 imm) (-2 ^ imm.toNat) (2 ^ imm.toNat - 1)
      (fun j => (lane 16 (s.readX s.bits rs1) j).toInt) ∧
    clamped 16 (.uclip16 rd rs1 imm) 0 (2 ^ imm.toNat - 1) (fun j => (lane 16 (s.readX s.bits rs1) j).toInt) ∧
    clamped 16 (.kabs16 rd rs1) (-2 ^ 15) (2 ^ 15 - 1) (fun j => (lane 16 (s.readX s.bits rs1) j).toInt.natAbs) ∧
    clamped 8 (.kabs8 rd rs1) (-2 ^ 7) (2 ^ 7 - 1) (fun j => (lane 8 (s.readX s.bits rs1) j).toInt.natAbs)

/-- spec/40_helpers.md R58, R59: a reported clamp is what sets OV (R60). -/
def Obligations.SaturationHelpers : Prop :=
  ∀ (w : Nat) (v : Int) (range : Nat),
    (v > 2 ^ range - 1 → satS w v range = (BitVec.ofInt w (2 ^ range - 1), true)) ∧
    (v < -2 ^ range → satS w v range = (BitVec.ofInt w (-2 ^ range), true)) ∧
    (-2 ^ range ≤ v → v ≤ 2 ^ range - 1 → satS w v range = (BitVec.ofInt w v, false)) ∧
    (v > 2 ^ range - 1 → satU w v range = (BitVec.ofInt w (2 ^ range - 1), true)) ∧
    (v < 0 → satU w v range = (0, true)) ∧
    (0 ≤ v → v ≤ 2 ^ range - 1 → satU w v range = (BitVec.ofInt w v, false)) ∧
    (∀ s : State, (s.raiseOv true).hart.ucode = s.hart.ucode ||| 1 ∧ s.raiseOv false = s)

/-- spec/40_helpers.md R61, R62: the value of the lane is the whole shifted product or sum, so that it fits. The bit below the
amount is that of the integer, which is the lane's own bit up to the lane's width. -/
def Obligations.LaneHelpers : Prop :=
  (∀ w ∈ [8, 16], ∀ a b : BitVec w,
    (a.toInt = -2 ^ (w - 1) ∧ b.toInt = -2 ^ (w - 1) → (khm a b).1.toInt = 2 ^ (w - 1) - 1 ∧ (khm a b).2 = true) ∧
    (¬(a.toInt = -2 ^ (w - 1) ∧ b.toInt = -2 ^ (w - 1)) →
      (khm a b).1.toInt = a.toInt * b.toInt / 2 ^ (w - 1) ∧ (khm a b).2 = false)) ∧
  (∀ (w : Nat) (a : BitVec w) (k : Nat),
    (k = 0 → rShrS a k = a ∧ rShrU a k = a) ∧
    (k ≠ 0 →
      (rShrS a k).toInt = a.toInt / 2 ^ k + a.toInt / 2 ^ (k - 1) % 2 ∧
      (k ≤ w → a.toInt / 2 ^ (k - 1) % 2 = if a.getLsbD (k - 1) then 1 else 0) ∧
      (rShrS a k).toInt = (a.toInt + 2 ^ (k - 1)) / 2 ^ k ∧
      (rShrU a k).toNat = a.toNat / 2 ^ k + (if a.getLsbD (k - 1) then 1 else 0) ∧
      (rShrU a k).toNat = (a.toNat + 2 ^ (k - 1)) / 2 ^ k))

/-- spec/48_andes_vendor.md R376 to R379, spec/30_encoding.md R46, R47. That the index is unsigned and 16 bits wide is the
model's choice (log 17); what a supplied EXECIT_ADDR sees is too (log 18), and that the flag is a field of the hart (log 16).
That the SP16 check follows the executor of the inner instruction, so that an inner M, A, F, D, FH, BF or P write to x2 is not
checked although exec.it is a row of the C executor (spec/40_helpers.md R57, R379), is the model's reading (log 20). So is
that R47 refuses an inner word of its spaces, where R379 says that an inner word which matches no row is IllegalInstruction
(log 28). -/
def Obligations.TableExecute : Prop :=
  ∀ (s : State) (index : BitVec 16), s.hart.te = false →
    let a : BitVec s.bits :=
      match s.params.execItAddr with
      | .standard => s.hart.uitb.setWidth s.bits + 4 * index.setWidth s.bits
      | .supplied => (Config.execItAddr s.hart.uitb index).setWidth s.bits
    let w : BitVec 32 := s.mem.load a 4
    let flagged : State := { s with hart := { s.hart with te := true } }
    (s.params.admits a.toNat 4 .fetch = false → exec (.execIt index) s = .next s.nowStuck) ∧
    (s.params.admits a.toNat 4 .fetch = true →
      (w.extractLsb' 0 2 ≠ 3 → exec (.execIt index) s = .refused .tableEntry) ∧
      (w.extractLsb' 0 2 = 3 →
        (decode s.params.xlen s.params.openRows (.full w) = .error .illegal →
          exec (.execIt index) s = .next (s.haltedFor .illegalInstruction)) ∧
        (decode s.params.xlen s.params.openRows (.full w) = .error .packedSpace →
          exec (.execIt index) s = .refused .packedSpace) ∧
        (decode s.params.xlen s.params.openRows (.full w) = .error .customSpace →
          exec (.execIt index) s = .refused .customSpace) ∧
        ∀ i, decode s.params.xlen s.params.openRows (.full w) = .ok i →
          (∀ t, exec i flagged = .next t →
            exec (.execIt index) s = .next { t with hart := { t.hart with te := false } }) ∧
          (∀ r, exec i flagged = .refused r → exec (.execIt index) s = .refused r) ∧
          (∀ rd rs1 imm, i = .addi rd rs1 imm → s.mayName [rd, rs1] = true →
            let v : BitVec s.bits := s.readX s.bits rs1 + imm.signExtend s.bits
            Completes (.execIt index) s fun t => WritesX s t rd v (s.spBad rd v) (s.pcVal s.bits + 2))))

/-- spec/48_andes_vendor.md R380, R381, spec/20_memory.md R28. LSM_WB is a free value: the statement holds whatever it is.
Where the transfers stand rests on log 19 for the pre modes and for paired accesses based on x2: a pre mode adjusts the base
by one step, and the padding enters LSM_WB alone and moves no transfer. The length is that of the word (log 17). -/
def Obligations.LoadStoreMultiple : Prop :=
  ∀ (s : State) (rb : Reg) (first last : BitVec 5) (mode : LsmMode) (paired : Bool) (length : LsmLength),
    let n := s.bits
    let size := n / 8
    let load := Instr.lmw rb first last ⟨mode, length⟩ paired
    let store := Instr.smw rb first last ⟨mode, length⟩ paired
    (s.params.lsmTable = none → exec load s = .refused .lsmOpen ∧ exec store s = .refused .lsmOpen) ∧
    (∀ table : Vector Reg 32, s.params.lsmTable = some table →
      let regs := (table.toList.drop first.toNat).take (last.toNat + 1 - first.toNat)
      let down := mode = .postDescending ∨ mode = .preDescending
      let before := mode = .preAscending ∨ mode = .preDescending
      s.mayName (rb :: regs) = true →
      ∀ step a0 : BitVec n, (down → step = -BitVec.ofNat n size) → (¬down → step = BitVec.ofNat n size) →
      (before → a0 = s.readX n rb + step) → (¬before → a0 = s.readX n rb) →
      let place : Nat → BitVec n := fun j => a0 + step * BitVec.ofNat n j
      let next : BitVec n := s.npc n (match length with | .half => 2 | .full => 4)
      -- the registers after the first m loads
      let loaded : Nat → Reg → Word := fun m q =>
        match ((regs.take m).zipIdx.filter fun e => e.1 == q).getLast? with
        | some e => (s.mem.load (place e.2) size).setWidth 64
        | none => s.readX 64 q
      -- memory after the first m stores
      let stored : Nat → State → Prop := fun m t =>
        (∀ j (h : j < regs.length), j < m → ∀ b, b < size →
          t.mem.read (place j + BitVec.ofNat n b).toNat = (s.readX n regs[j]).extractLsb' (8 * b) 8) ∧
        (∀ c, (∀ j, j < m → ∀ b, b < size → c ≠ (place j + BitVec.ofNat n b).toNat) → t.mem.read c = s.mem.read c)
      let base : BitVec n := (Config.lsmWriteBack (s.lsmRequest rb first last mode paired)).setWidth n
      let bad := rb = 0 ∨ table[last.toNat]'last.isLt = 0 ∨ last < first ∨ a0.toNat % size ≠ 0
      (bad → exec load s = .next (s.haltedFor .illegalInstruction) ∧
        exec store s = .next (s.haltedFor .illegalInstruction)) ∧
      (¬bad → (∀ j, j < regs.length → s.params.admits (place j).toNat size .read = true) →
        Completes load s fun t =>
          (∀ q : Reg, q ≠ 0 → q ≠ rb → t.readX 64 q = loaded regs.length q) ∧
          t.readX 64 rb = base.setWidth 64 ∧ t.readX 64 0 = 0 ∧ Finishes s t false next ∧
          (∀ b, t.mem.read b = s.mem.read b) ∧
          t = { s with hart := { s.hart with x := t.hart.x, pc := t.hart.pc, status := t.hart.status } }) ∧
      (¬bad → (∀ j, j < regs.length → s.params.admits (place j).toNat size .write = true) →
        Completes store s fun t =>
          stored regs.length t ∧ WritesX { s with mem := t.mem } t rb base false next) ∧
      (¬bad → ∀ m, m < regs.length → (∀ j, j < m → s.params.admits (place j).toNat size .read = true) →
        s.params.admits (place m).toNat size .read = false →
        Completes load s fun t =>
          (∀ q : Reg, q ≠ 0 → t.readX 64 q = loaded m q) ∧ t.readX 64 0 = 0 ∧ t.hart.status = .stuck ∧
          (∀ b, t.mem.read b = s.mem.read b) ∧
          t = { s with hart := { s.hart with x := t.hart.x, status := .stuck } }) ∧
      (¬bad → ∀ m, m < regs.length → (∀ j, j < m → s.params.admits (place j).toNat size .write = true) →
        s.params.admits (place m).toNat size .write = false →
        Completes store s fun t =>
          stored m t ∧ t = { s with mem := t.mem, hart := { s.hart with status := .stuck } }))

/-- spec/10_state.md R13, which speaks of an instruction's register fields. The rest is the model's reading, no rule's words
(log 22): that the fields which count are those of Instr.xNames, that the registers of their part of the table count as named
by lmw and smw, as their base does, and that this refusal comes before every other check but that of XLEN, so before the
IllegalInstruction checks of spec/48_andes_vendor.md R380 and R381 too. -/
def Obligations.ReducedAbiRefuses : Prop :=
  (∀ (i : Instr) (s : State), i.existsOn s.params.xlen = true → s.params.reducedAbi = true →
    (∃ r ∈ i.xNames, 16 ≤ r.toNat) → exec i s = .refused .reducedAbiRegister) ∧
  (∀ (s : State) (rb : Reg) (first last : BitVec 5) (form : LsmForm) (paired : Bool)
    (table : Vector Reg 32), s.params.reducedAbi = true → s.params.lsmTable = some table →
    (∃ r ∈ rb :: (table.toList.drop first.toNat).take (last.toNat + 1 - first.toNat), 16 ≤ r.toNat) →
    exec (.lmw rb first last form paired) s = .refused .reducedAbiRegister ∧
    exec (.smw rb first last form paired) s = .refused .reducedAbiRegister)

/-- spec/60_exceptions.md R385, spec/30_encoding.md R44: the decoder never gives a row of the other XLEN (log 21).
spec/41_base_integer.md R91 to R93, spec/42_compressed.md R139, R140, R151: the six shifts. -/
def Obligations.WrongXlenHalts : Prop :=
  (∀ (i : Instr) (s : State), i.existsOn s.params.xlen = false → exec i s = .next (s.haltedFor .illegalInstruction)) ∧
  (∀ (s : State) (rd rs1 : Reg) (cd : CReg) (shamt : BitVec 6), s.params.xlen = .rv32 → shamt.getLsbD 5 = true →
    s.mayName [rd, rs1] = true →
    ∀ i ∈ [Instr.slli rd rs1 shamt, .srli rd rs1 shamt, .srai rd rs1 shamt, .cSlli rd shamt, .cSrli cd shamt,
        .cSrai cd shamt],
      exec i s = .next (s.haltedFor .illegalInstruction))

/-- spec/44_atomic.md R180. -/
def Obligations.ReservationsKept : Prop :=
  ∀ (i : Instr) (s t : State), exec i s = .next t →
    match i with
    | .lrW _ _ _ _ | .lrD _ _ _ _ | .scW _ _ _ _ _ | .scD _ _ _ _ _ | .execIt _ => True
    | _ => t.resv = s.resv

/-- spec/10_state.md R21, R22 and spec/40_helpers.md R60; which rule names which flags is `Instr.flagEffect`. -/
def Obligations.StickyFlags : Prop :=
  ∀ (i : Instr) (s t : State), exec i s = .next t → i.flagEffect ≠ .other →
    t.hart.fflags &&& s.hart.fflags = s.hart.fflags ∧
    (i.flagEffect ≠ .accrued → t.hart.fflags = s.hart.fflags) ∧
    (t.hart.ucode = s.hart.ucode ∨ t.hart.ucode = s.hart.ucode ||| 1) ∧
    (i.flagEffect ≠ .overflow → t.hart.ucode = s.hart.ucode) ∧
    t.hart.frm = s.hart.frm ∧ t.hart.fcsrOpen = s.hart.fcsrOpen ∧ t.hart.uitb = s.hart.uitb ∧
    t.hart.mvendorid = s.hart.mvendorid ∧ t.hart.marchid = s.hart.marchid ∧ t.hart.mimpid = s.hart.mimpid ∧
    t.hart.mhartid = s.hart.mhartid

/-- spec/00_scope.md R5, spec/10_state.md R16, spec/40_helpers.md R56, spec/60_exceptions.md R395. That bits 127:64 stay under
every instruction is R16; the corner cases of spec/45_float.md R238 and R267 speak of a draw above bit 63 for fld and fmv.d.x,
and not following them there is the model's reading (log 11). -/
def Obligations.FixedState : Prop :=
  ∀ (i : Instr) (s t : State), exec i s = .next t →
    t.params = s.params ∧ t.parked = s.parked ∧ t.schedule = s.schedule ∧ t.refusedMark = s.refusedMark ∧
    t.hart.id = s.hart.id ∧
    (∀ r : Reg, (t.hart.f[r.toNat]'r.isLt).extractLsb' 64 64 = (s.hart.f[r.toNat]'r.isLt).extractLsb' 64 64) ∧
    (t.hart.pc = s.hart.pc ∨ t.hart.pc ≠ 0)

/-- spec/40_helpers.md R54, spec/20_memory.md R32, spec/30_encoding.md R40, R44. Beside what the instruction does, the step
records a refusal (spec/00_scope.md R8; log 14). -/
def Obligations.StepRunsDecoded : Prop :=
  (∀ (s t : State) (i : Instr), s.refusedMark = none → s.exited = false → s.pick = some t →
    let pc := t.pcVal t.bits
    let low : BitVec 16 := t.mem.load pc 2
    let high : BitVec 16 := t.mem.load (pc + 2) 2
    pc.getLsbD 0 = false → t.params.admits pc.toNat 2 .fetch = true →
    (low.extractLsb' 0 2 ≠ 3 → decode t.params.xlen t.params.openRows (.half low) = .ok i → StepRuns i s t) ∧
    (low.extractLsb' 0 2 = 3 → t.params.admits (pc + 2).toNat 2 .fetch = true →
      decode t.params.xlen t.params.openRows (.full (high ++ low)) = .ok i → StepRuns i s t)) ∧
  (∀ s : State, s.hart.status = .running → s.parked = [] → s.schedule = [] → s.hart.te = false → s.pick = some s)

/-- spec/00_scope.md R8, spec/10_state.md R14, spec/20_memory.md R28, spec/30_encoding.md R46, R47, spec/60_exceptions.md
R387, R400. That a run which is over has a step at all, a fault or a refusal, is the model's form (logs 14, 15). -/
def Obligations.StepStops : Prop :=
  (∀ (s : State) (r : Refusal), s.refusedMark = some r → step s = .refused r) ∧
  (∀ s : State, s.refusedMark = none → s.exited = true → step s = .fault .runEnded) ∧
  (∀ s : State, s.refusedMark = none → s.exited = false → (∀ h ∈ s.hart :: s.parked, h.status ≠ .running) →
    step s = .fault .noRunningHart) ∧
  (∀ s t : State, s.refusedMark = none → s.exited = false → s.pick = some t →
    let pc := t.pcVal t.bits
    let low : BitVec 16 := t.mem.load pc 2
    let high : BitVec 16 := t.mem.load (pc + 2) 2
    let parcel : Parcel := if low.extractLsb' 0 2 = 3 then .full (high ++ low) else .half low
    (pc.getLsbD 0 = true → step s = .next (t.refusedFor .oddPc)) ∧
    (pc.getLsbD 0 = false → t.params.admits pc.toNat 2 .fetch = false → step s = .next t.nowStuck) ∧
    (pc.getLsbD 0 = false → t.params.admits pc.toNat 2 .fetch = true → low.extractLsb' 0 2 = 3 →
      t.params.admits (pc + 2).toNat 2 .fetch = false → step s = .next t.nowStuck) ∧
    (pc.getLsbD 0 = false → t.params.admits pc.toNat 2 .fetch = true →
      (low.extractLsb' 0 2 = 3 → t.params.admits (pc + 2).toNat 2 .fetch = true) →
      (decode t.params.xlen t.params.openRows parcel = .error .illegal →
        step s = .next (t.haltedFor .illegalInstruction)) ∧
      (decode t.params.xlen t.params.openRows parcel = .error .unmatchedHalf →
        step s = .next (t.refusedFor .unmatchedHalf)) ∧
      (decode t.params.xlen t.params.openRows parcel = .error .packedSpace →
        step s = .next (t.refusedFor .packedSpace)) ∧
      (decode t.params.xlen t.params.openRows parcel = .error .customSpace →
        step s = .next (t.refusedFor .customSpace))))

/-- spec/95_test_vectors.md: V-H, V-I, V-C, V-M, V-A, V-F, V-FH, V-P and the programs. A sanity statement. -/
def Obligations.DecodeWords : Prop :=
  ∀ rows : List OpenRow,
    decode .rv32 rows (.full 0x002081B3) = .ok (.add 3 1 2) ∧
    decode .rv64 rows (.full 0x00500293) = .ok (.addi 5 0 5) ∧
    decode .rv32 rows (.full 0xF02080E3) = .ok (.beq 1 2 0xF80) ∧
    decode .rv64 rows (.full 0x008000EF) = .ok (.jal 1 4) ∧
    decode .rv32 rows (.full 0x00532023) = .ok (.sw 5 6 0) ∧
    decode .rv32 rows (.full 0x02009193) = .ok (.slli 3 1 32) ∧
    decode .rv32 rows (.full 0x801091F3) = .ok (.csrrw 3 0x801 1) ∧
    decode .rv64 rows (.half 0x0800) = .ok (.cAddi4spn 0 4) ∧
    decode .rv32 rows (.half 0x713D) = .ok (.cAddi16sp 0x3E) ∧
    decode .rv32 rows (.half 0xB7C5) = .ok (.cJ 0x7F0) ∧
    decode .rv64 rows (.half 0x2285) = .ok (.cAddiw 5 1) ∧
    decode .rv64 rows (.full 0x0220C1BB) = .ok (.divw 3 1 2) ∧
    decode .rv64 rows (.full 0x188333AF) = .ok (.scD 7 8 6 0 0) ∧
    decode .rv64 rows (.full 0x00032087) = .ok (.flw 1 6 0) ∧
    decode .rv32 rows (.full 0x0020F1D3) = .ok (.faddS 3 1 2 7) ∧
    decode .rv32 rows (.full 0x420081D3) = .ok (.fcvtDS 3 1 0) ∧
    decode .rv32 rows (.full 0xE40091D3) = .ok (.fclassH 3 1) ∧
    decode .rv32 rows (.full 0x847081F7) = .ok (.sclip16 3 1 7) ∧
    decode .rv32 rows (.full 0x10208077) = .ok (.kadd16 0 1 2)

/-- spec/30_encoding.md R44, R45. -/
def Obligations.EncodingsRejectOthers : Prop :=
  ∀ x : Xlen,
    (∀ (i j : Nat) (r q : Row 32) (w : BitVec 32), rowsFull[i]? = some r → rowsFull[j]? = some q → i ≠ j →
      r.keptOn x = true → q.keptOn x = true → ¬(r.accepts w = true ∧ q.accepts w = true)) ∧
    (∀ (i j : Nat) (r q : Row 16) (h : BitVec 16), rowsCompressed[i]? = some r → rowsCompressed[j]? = some q → i ≠ j →
      r.keptOn x = true → q.keptOn x = true → ¬(r.accepts h = true ∧ q.accepts h = true))

/-- spec/30_encoding.md R41 to R45 and the encodings of the rules of spec/41 to spec/47. -/
def Obligations.EncodeDecode : Prop :=
  ∀ (x : Xlen) (rows : List OpenRow) (i : Instr) (p : Parcel), i.wellFormed = true → i.existsOn x = true →
    encode i = some p → decode x rows p = .ok i

/-- The invariant of Safety.lean at the launch state the model names (logs 1, 4, 5, 6, 7). -/
def Obligations.InvAtReset : Prop :=
  State.reset.Inv

/-- spec/10_state.md R12, R14, R23, R24, spec/20_memory.md R27. The canonical forms and the storage are the model's (logs
2, 7). -/
def Obligations.InvKept : Prop :=
  ∀ s t : State, s.Inv → step s = .next t → t.Inv
end

