-- ==== Sys2Proof/Laws/Dispatch.lean ====
section
/-! SUPPORT. What `exec` answers for each instruction, to rewrite with: its meaning. -/

namespace Sys2Proof.Machine

theorem exec_lui (rd : Reg) (imm20 : BitVec 20) (s : State) :
    exec (.lui rd imm20) s = execLui rd imm20 s := rfl
theorem exec_auipc (rd : Reg) (imm20 : BitVec 20) (s : State) :
    exec (.auipc rd imm20) s = execAuipc rd imm20 s := rfl
theorem exec_jal (rd : Reg) (off : BitVec 20) (s : State) :
    exec (.jal rd off) s = execJal rd off s := rfl
theorem exec_jalr (rd rs1 : Reg) (imm : BitVec 12) (s : State) :
    exec (.jalr rd rs1 imm) s = execJalr rd rs1 imm s := rfl
theorem exec_beq (rs1 rs2 : Reg) (off : BitVec 12) (s : State) :
    exec (.beq rs1 rs2 off) s = execBeq rs1 rs2 off s := rfl
theorem exec_bne (rs1 rs2 : Reg) (off : BitVec 12) (s : State) :
    exec (.bne rs1 rs2 off) s = execBne rs1 rs2 off s := rfl
theorem exec_blt (rs1 rs2 : Reg) (off : BitVec 12) (s : State) :
    exec (.blt rs1 rs2 off) s = execBlt rs1 rs2 off s := rfl
theorem exec_bge (rs1 rs2 : Reg) (off : BitVec 12) (s : State) :
    exec (.bge rs1 rs2 off) s = execBge rs1 rs2 off s := rfl
theorem exec_bltu (rs1 rs2 : Reg) (off : BitVec 12) (s : State) :
    exec (.bltu rs1 rs2 off) s = execBltu rs1 rs2 off s := rfl
theorem exec_bgeu (rs1 rs2 : Reg) (off : BitVec 12) (s : State) :
    exec (.bgeu rs1 rs2 off) s = execBgeu rs1 rs2 off s := rfl
theorem exec_lb (rd rs1 : Reg) (imm : BitVec 12) (s : State) :
    exec (.lb rd rs1 imm) s = execLb rd rs1 imm s := rfl
theorem exec_lh (rd rs1 : Reg) (imm : BitVec 12) (s : State) :
    exec (.lh rd rs1 imm) s = execLh rd rs1 imm s := rfl
theorem exec_lw (rd rs1 : Reg) (imm : BitVec 12) (s : State) :
    exec (.lw rd rs1 imm) s = execLw rd rs1 imm s := rfl
theorem exec_lbu (rd rs1 : Reg) (imm : BitVec 12) (s : State) :
    exec (.lbu rd rs1 imm) s = execLbu rd rs1 imm s := rfl
theorem exec_lhu (rd rs1 : Reg) (imm : BitVec 12) (s : State) :
    exec (.lhu rd rs1 imm) s = execLhu rd rs1 imm s := rfl
theorem exec_lwu (rd rs1 : Reg) (imm : BitVec 12) (s : State) :
    exec (.lwu rd rs1 imm) s = execLwu rd rs1 imm s := rfl
theorem exec_ld (rd rs1 : Reg) (imm : BitVec 12) (s : State) :
    exec (.ld rd rs1 imm) s = execLd rd rs1 imm s := rfl
theorem exec_sb (rs2 rs1 : Reg) (imm : BitVec 12) (s : State) :
    exec (.sb rs2 rs1 imm) s = execSb rs2 rs1 imm s := rfl
theorem exec_sh (rs2 rs1 : Reg) (imm : BitVec 12) (s : State) :
    exec (.sh rs2 rs1 imm) s = execSh rs2 rs1 imm s := rfl
theorem exec_sw (rs2 rs1 : Reg) (imm : BitVec 12) (s : State) :
    exec (.sw rs2 rs1 imm) s = execSw rs2 rs1 imm s := rfl
theorem exec_sd (rs2 rs1 : Reg) (imm : BitVec 12) (s : State) :
    exec (.sd rs2 rs1 imm) s = execSd rs2 rs1 imm s := rfl
theorem exec_addi (rd rs1 : Reg) (imm : BitVec 12) (s : State) :
    exec (.addi rd rs1 imm) s = execAddi rd rs1 imm s := rfl
theorem exec_slti (rd rs1 : Reg) (imm : BitVec 12) (s : State) :
    exec (.slti rd rs1 imm) s = execSlti rd rs1 imm s := rfl
theorem exec_sltiu (rd rs1 : Reg) (imm : BitVec 12) (s : State) :
    exec (.sltiu rd rs1 imm) s = execSltiu rd rs1 imm s := rfl
theorem exec_xori (rd rs1 : Reg) (imm : BitVec 12) (s : State) :
    exec (.xori rd rs1 imm) s = execXori rd rs1 imm s := rfl
theorem exec_ori (rd rs1 : Reg) (imm : BitVec 12) (s : State) :
    exec (.ori rd rs1 imm) s = execOri rd rs1 imm s := rfl
theorem exec_andi (rd rs1 : Reg) (imm : BitVec 12) (s : State) :
    exec (.andi rd rs1 imm) s = execAndi rd rs1 imm s := rfl
theorem exec_slli (rd rs1 : Reg) (shamt : BitVec 6) (s : State) :
    exec (.slli rd rs1 shamt) s = execSlli rd rs1 shamt s := rfl
theorem exec_srli (rd rs1 : Reg) (shamt : BitVec 6) (s : State) :
    exec (.srli rd rs1 shamt) s = execSrli rd rs1 shamt s := rfl
theorem exec_srai (rd rs1 : Reg) (shamt : BitVec 6) (s : State) :
    exec (.srai rd rs1 shamt) s = execSrai rd rs1 shamt s := rfl
theorem exec_add (rd rs1 rs2 : Reg) (s : State) :
    exec (.add rd rs1 rs2) s = execAdd rd rs1 rs2 s := rfl
theorem exec_sub (rd rs1 rs2 : Reg) (s : State) :
    exec (.sub rd rs1 rs2) s = execSub rd rs1 rs2 s := rfl
theorem exec_sll (rd rs1 rs2 : Reg) (s : State) :
    exec (.sll rd rs1 rs2) s = execSll rd rs1 rs2 s := rfl
theorem exec_slt (rd rs1 rs2 : Reg) (s : State) :
    exec (.slt rd rs1 rs2) s = execSlt rd rs1 rs2 s := rfl
theorem exec_sltu (rd rs1 rs2 : Reg) (s : State) :
    exec (.sltu rd rs1 rs2) s = execSltu rd rs1 rs2 s := rfl
theorem exec_xor (rd rs1 rs2 : Reg) (s : State) :
    exec (.xor rd rs1 rs2) s = execXor rd rs1 rs2 s := rfl
theorem exec_srl (rd rs1 rs2 : Reg) (s : State) :
    exec (.srl rd rs1 rs2) s = execSrl rd rs1 rs2 s := rfl
theorem exec_sra (rd rs1 rs2 : Reg) (s : State) :
    exec (.sra rd rs1 rs2) s = execSra rd rs1 rs2 s := rfl
theorem exec_or (rd rs1 rs2 : Reg) (s : State) :
    exec (.or rd rs1 rs2) s = execOr rd rs1 rs2 s := rfl
theorem exec_and (rd rs1 rs2 : Reg) (s : State) :
    exec (.and rd rs1 rs2) s = execAnd rd rs1 rs2 s := rfl
theorem exec_addiw (rd rs1 : Reg) (imm : BitVec 12) (s : State) :
    exec (.addiw rd rs1 imm) s = execAddiw rd rs1 imm s := rfl
theorem exec_slliw (rd rs1 : Reg) (shamt : BitVec 5) (s : State) :
    exec (.slliw rd rs1 shamt) s = execSlliw rd rs1 shamt s := rfl
theorem exec_srliw (rd rs1 : Reg) (shamt : BitVec 5) (s : State) :
    exec (.srliw rd rs1 shamt) s = execSrliw rd rs1 shamt s := rfl
theorem exec_sraiw (rd rs1 : Reg) (shamt : BitVec 5) (s : State) :
    exec (.sraiw rd rs1 shamt) s = execSraiw rd rs1 shamt s := rfl
theorem exec_addw (rd rs1 rs2 : Reg) (s : State) :
    exec (.addw rd rs1 rs2) s = execAddw rd rs1 rs2 s := rfl
theorem exec_subw (rd rs1 rs2 : Reg) (s : State) :
    exec (.subw rd rs1 rs2) s = execSubw rd rs1 rs2 s := rfl
theorem exec_sllw (rd rs1 rs2 : Reg) (s : State) :
    exec (.sllw rd rs1 rs2) s = execSllw rd rs1 rs2 s := rfl
theorem exec_srlw (rd rs1 rs2 : Reg) (s : State) :
    exec (.srlw rd rs1 rs2) s = execSrlw rd rs1 rs2 s := rfl
theorem exec_sraw (rd rs1 rs2 : Reg) (s : State) :
    exec (.sraw rd rs1 rs2) s = execSraw rd rs1 rs2 s := rfl
theorem exec_fence (fm pred succ : BitVec 4) (rs1 rd : Reg) (s : State) :
    exec (.fence fm pred succ rs1 rd) s = execFence fm pred succ rs1 rd s := rfl
theorem exec_fenceI (rd rs1 : Reg) (imm : BitVec 12) (s : State) :
    exec (.fenceI rd rs1 imm) s = execFenceI rd rs1 imm s := rfl
theorem exec_ecall (s : State) :
    exec .ecall s = execEcall s := rfl
theorem exec_ebreak (s : State) :
    exec .ebreak s = execEbreak s := rfl
theorem exec_csrrw (rd : Reg) (csr : BitVec 12) (rs1 : Reg) (s : State) :
    exec (.csrrw rd csr rs1) s = execCsrrw rd csr rs1 s := rfl
theorem exec_csrrs (rd : Reg) (csr : BitVec 12) (rs1 : Reg) (s : State) :
    exec (.csrrs rd csr rs1) s = execCsrrs rd csr rs1 s := rfl
theorem exec_csrrc (rd : Reg) (csr : BitVec 12) (rs1 : Reg) (s : State) :
    exec (.csrrc rd csr rs1) s = execCsrrc rd csr rs1 s := rfl
theorem exec_csrrwi (rd : Reg) (csr : BitVec 12) (uimm : BitVec 5) (s : State) :
    exec (.csrrwi rd csr uimm) s = execCsrrwi rd csr uimm s := rfl
theorem exec_csrrsi (rd : Reg) (csr : BitVec 12) (uimm : BitVec 5) (s : State) :
    exec (.csrrsi rd csr uimm) s = execCsrrsi rd csr uimm s := rfl
theorem exec_csrrci (rd : Reg) (csr : BitVec 12) (uimm : BitVec 5) (s : State) :
    exec (.csrrci rd csr uimm) s = execCsrrci rd csr uimm s := rfl
theorem exec_cAddi4spn (rd : CReg) (nzuimm : BitVec 8) (s : State) :
    exec (.cAddi4spn rd nzuimm) s = execCAddi4spn rd nzuimm s := rfl
theorem exec_cFld (rd rs1 : CReg) (uimm : BitVec 5) (s : State) :
    exec (.cFld rd rs1 uimm) s = execCFld rd rs1 uimm s := rfl
theorem exec_cLw (rd rs1 : CReg) (uimm : BitVec 5) (s : State) :
    exec (.cLw rd rs1 uimm) s = execCLw rd rs1 uimm s := rfl
theorem exec_cFlw (rd rs1 : CReg) (uimm : BitVec 5) (s : State) :
    exec (.cFlw rd rs1 uimm) s = execCFlw rd rs1 uimm s := rfl
theorem exec_cLd (rd rs1 : CReg) (uimm : BitVec 5) (s : State) :
    exec (.cLd rd rs1 uimm) s = execCLd rd rs1 uimm s := rfl
theorem exec_cFsd (rs2 rs1 : CReg) (uimm : BitVec 5) (s : State) :
    exec (.cFsd rs2 rs1 uimm) s = execCFsd rs2 rs1 uimm s := rfl
theorem exec_cSw (rs2 rs1 : CReg) (uimm : BitVec 5) (s : State) :
    exec (.cSw rs2 rs1 uimm) s = execCSw rs2 rs1 uimm s := rfl
theorem exec_cFsw (rs2 rs1 : CReg) (uimm : BitVec 5) (s : State) :
    exec (.cFsw rs2 rs1 uimm) s = execCFsw rs2 rs1 uimm s := rfl
theorem exec_cSd (rs2 rs1 : CReg) (uimm : BitVec 5) (s : State) :
    exec (.cSd rs2 rs1 uimm) s = execCSd rs2 rs1 uimm s := rfl
theorem exec_cNop (s : State) :
    exec .cNop s = execCNop s := rfl
theorem exec_cAddi (rd : Reg) (imm : BitVec 6) (s : State) :
    exec (.cAddi rd imm) s = execCAddi rd imm s := rfl
theorem exec_cJal (off : BitVec 11) (s : State) :
    exec (.cJal off) s = execCJal off s := rfl
theorem exec_cAddiw (rd : Reg) (imm : BitVec 6) (s : State) :
    exec (.cAddiw rd imm) s = execCAddiw rd imm s := rfl
theorem exec_cLi (rd : Reg) (imm : BitVec 6) (s : State) :
    exec (.cLi rd imm) s = execCLi rd imm s := rfl
theorem exec_cAddi16sp (nzimm : BitVec 6) (s : State) :
    exec (.cAddi16sp nzimm) s = execCAddi16sp nzimm s := rfl
theorem exec_cLui (rd : Reg) (nzimm : BitVec 6) (s : State) :
    exec (.cLui rd nzimm) s = execCLui rd nzimm s := rfl
theorem exec_cSrli (rd : CReg) (shamt : BitVec 6) (s : State) :
    exec (.cSrli rd shamt) s = execCSrli rd shamt s := rfl
theorem exec_cSrai (rd : CReg) (shamt : BitVec 6) (s : State) :
    exec (.cSrai rd shamt) s = execCSrai rd shamt s := rfl
theorem exec_cAndi (rd : CReg) (imm : BitVec 6) (s : State) :
    exec (.cAndi rd imm) s = execCAndi rd imm s := rfl
theorem exec_cSub (rd rs2 : CReg) (s : State) :
    exec (.cSub rd rs2) s = execCSub rd rs2 s := rfl
theorem exec_cXor (rd rs2 : CReg) (s : State) :
    exec (.cXor rd rs2) s = execCXor rd rs2 s := rfl
theorem exec_cOr (rd rs2 : CReg) (s : State) :
    exec (.cOr rd rs2) s = execCOr rd rs2 s := rfl
theorem exec_cAnd (rd rs2 : CReg) (s : State) :
    exec (.cAnd rd rs2) s = execCAnd rd rs2 s := rfl
theorem exec_cSubw (rd rs2 : CReg) (s : State) :
    exec (.cSubw rd rs2) s = execCSubw rd rs2 s := rfl
theorem exec_cAddw (rd rs2 : CReg) (s : State) :
    exec (.cAddw rd rs2) s = execCAddw rd rs2 s := rfl
theorem exec_cJ (off : BitVec 11) (s : State) :
    exec (.cJ off) s = execCJ off s := rfl
theorem exec_cBeqz (rs1 : CReg) (off : BitVec 8) (s : State) :
    exec (.cBeqz rs1 off) s = execCBeqz rs1 off s := rfl
theorem exec_cBnez (rs1 : CReg) (off : BitVec 8) (s : State) :
    exec (.cBnez rs1 off) s = execCBnez rs1 off s := rfl
theorem exec_cSlli (rd : Reg) (shamt : BitVec 6) (s : State) :
    exec (.cSlli rd shamt) s = execCSlli rd shamt s := rfl
theorem exec_cFldsp (rd : Reg) (uimm : BitVec 6) (s : State) :
    exec (.cFldsp rd uimm) s = execCFldsp rd uimm s := rfl
theorem exec_cLwsp (rd : Reg) (uimm : BitVec 6) (s : State) :
    exec (.cLwsp rd uimm) s = execCLwsp rd uimm s := rfl
theorem exec_cFlwsp (rd : Reg) (uimm : BitVec 6) (s : State) :
    exec (.cFlwsp rd uimm) s = execCFlwsp rd uimm s := rfl
theorem exec_cLdsp (rd : Reg) (uimm : BitVec 6) (s : State) :
    exec (.cLdsp rd uimm) s = execCLdsp rd uimm s := rfl
theorem exec_cJr (rs1 : Reg) (s : State) :
    exec (.cJr rs1) s = execCJr rs1 s := rfl
theorem exec_cMv (rd rs2 : Reg) (s : State) :
    exec (.cMv rd rs2) s = execCMv rd rs2 s := rfl
theorem exec_cEbreak (s : State) :
    exec .cEbreak s = execCEbreak s := rfl
theorem exec_cJalr (rs1 : Reg) (s : State) :
    exec (.cJalr rs1) s = execCJalr rs1 s := rfl
theorem exec_cAdd (rd rs2 : Reg) (s : State) :
    exec (.cAdd rd rs2) s = execCAdd rd rs2 s := rfl
theorem exec_cFsdsp (rs2 : Reg) (uimm : BitVec 6) (s : State) :
    exec (.cFsdsp rs2 uimm) s = execCFsdsp rs2 uimm s := rfl
theorem exec_cSwsp (rs2 : Reg) (uimm : BitVec 6) (s : State) :
    exec (.cSwsp rs2 uimm) s = execCSwsp rs2 uimm s := rfl
theorem exec_cFswsp (rs2 : Reg) (uimm : BitVec 6) (s : State) :
    exec (.cFswsp rs2 uimm) s = execCFswsp rs2 uimm s := rfl
theorem exec_cSdsp (rs2 : Reg) (uimm : BitVec 6) (s : State) :
    exec (.cSdsp rs2 uimm) s = execCSdsp rs2 uimm s := rfl
theorem exec_mul (rd rs1 rs2 : Reg) (s : State) :
    exec (.mul rd rs1 rs2) s = execMul rd rs1 rs2 s := rfl
theorem exec_mulh (rd rs1 rs2 : Reg) (s : State) :
    exec (.mulh rd rs1 rs2) s = execMulh rd rs1 rs2 s := rfl
theorem exec_mulhsu (rd rs1 rs2 : Reg) (s : State) :
    exec (.mulhsu rd rs1 rs2) s = execMulhsu rd rs1 rs2 s := rfl
theorem exec_mulhu (rd rs1 rs2 : Reg) (s : State) :
    exec (.mulhu rd rs1 rs2) s = execMulhu rd rs1 rs2 s := rfl
theorem exec_div (rd rs1 rs2 : Reg) (s : State) :
    exec (.div rd rs1 rs2) s = execDiv rd rs1 rs2 s := rfl
theorem exec_divu (rd rs1 rs2 : Reg) (s : State) :
    exec (.divu rd rs1 rs2) s = execDivu rd rs1 rs2 s := rfl
theorem exec_rem (rd rs1 rs2 : Reg) (s : State) :
    exec (.rem rd rs1 rs2) s = execRem rd rs1 rs2 s := rfl
theorem exec_remu (rd rs1 rs2 : Reg) (s : State) :
    exec (.remu rd rs1 rs2) s = execRemu rd rs1 rs2 s := rfl
theorem exec_mulw (rd rs1 rs2 : Reg) (s : State) :
    exec (.mulw rd rs1 rs2) s = execMulw rd rs1 rs2 s := rfl
theorem exec_divw (rd rs1 rs2 : Reg) (s : State) :
    exec (.divw rd rs1 rs2) s = execDivw rd rs1 rs2 s := rfl
theorem exec_divuw (rd rs1 rs2 : Reg) (s : State) :
    exec (.divuw rd rs1 rs2) s = execDivuw rd rs1 rs2 s := rfl
theorem exec_remw (rd rs1 rs2 : Reg) (s : State) :
    exec (.remw rd rs1 rs2) s = execRemw rd rs1 rs2 s := rfl
theorem exec_remuw (rd rs1 rs2 : Reg) (s : State) :
    exec (.remuw rd rs1 rs2) s = execRemuw rd rs1 rs2 s := rfl
theorem exec_lrW (rd rs1 : Reg) (aq rl : BitVec 1) (s : State) :
    exec (.lrW rd rs1 aq rl) s = execLrW rd rs1 aq rl s := rfl
theorem exec_scW (rd rs2 rs1 : Reg) (aq rl : BitVec 1) (s : State) :
    exec (.scW rd rs2 rs1 aq rl) s = execScW rd rs2 rs1 aq rl s := rfl
theorem exec_amoswapW (rd rs2 rs1 : Reg) (aq rl : BitVec 1) (s : State) :
    exec (.amoswapW rd rs2 rs1 aq rl) s = execAmoswapW rd rs2 rs1 aq rl s := rfl
theorem exec_amoaddW (rd rs2 rs1 : Reg) (aq rl : BitVec 1) (s : State) :
    exec (.amoaddW rd rs2 rs1 aq rl) s = execAmoaddW rd rs2 rs1 aq rl s := rfl
theorem exec_amoxorW (rd rs2 rs1 : Reg) (aq rl : BitVec 1) (s : State) :
    exec (.amoxorW rd rs2 rs1 aq rl) s = execAmoxorW rd rs2 rs1 aq rl s := rfl
theorem exec_amoandW (rd rs2 rs1 : Reg) (aq rl : BitVec 1) (s : State) :
    exec (.amoandW rd rs2 rs1 aq rl) s = execAmoandW rd rs2 rs1 aq rl s := rfl
theorem exec_amoorW (rd rs2 rs1 : Reg) (aq rl : BitVec 1) (s : State) :
    exec (.amoorW rd rs2 rs1 aq rl) s = execAmoorW rd rs2 rs1 aq rl s := rfl
theorem exec_amominW (rd rs2 rs1 : Reg) (aq rl : BitVec 1) (s : State) :
    exec (.amominW rd rs2 rs1 aq rl) s = execAmominW rd rs2 rs1 aq rl s := rfl
theorem exec_amomaxW (rd rs2 rs1 : Reg) (aq rl : BitVec 1) (s : State) :
    exec (.amomaxW rd rs2 rs1 aq rl) s = execAmomaxW rd rs2 rs1 aq rl s := rfl
theorem exec_amominuW (rd rs2 rs1 : Reg) (aq rl : BitVec 1) (s : State) :
    exec (.amominuW rd rs2 rs1 aq rl) s = execAmominuW rd rs2 rs1 aq rl s := rfl
theorem exec_amomaxuW (rd rs2 rs1 : Reg) (aq rl : BitVec 1) (s : State) :
    exec (.amomaxuW rd rs2 rs1 aq rl) s = execAmomaxuW rd rs2 rs1 aq rl s := rfl
theorem exec_lrD (rd rs1 : Reg) (aq rl : BitVec 1) (s : State) :
    exec (.lrD rd rs1 aq rl) s = execLrD rd rs1 aq rl s := rfl
theorem exec_scD (rd rs2 rs1 : Reg) (aq rl : BitVec 1) (s : State) :
    exec (.scD rd rs2 rs1 aq rl) s = execScD rd rs2 rs1 aq rl s := rfl
theorem exec_amoswapD (rd rs2 rs1 : Reg) (aq rl : BitVec 1) (s : State) :
    exec (.amoswapD rd rs2 rs1 aq rl) s = execAmoswapD rd rs2 rs1 aq rl s := rfl
theorem exec_amoaddD (rd rs2 rs1 : Reg) (aq rl : BitVec 1) (s : State) :
    exec (.amoaddD rd rs2 rs1 aq rl) s = execAmoaddD rd rs2 rs1 aq rl s := rfl
theorem exec_amoxorD (rd rs2 rs1 : Reg) (aq rl : BitVec 1) (s : State) :
    exec (.amoxorD rd rs2 rs1 aq rl) s = execAmoxorD rd rs2 rs1 aq rl s := rfl
theorem exec_amoandD (rd rs2 rs1 : Reg) (aq rl : BitVec 1) (s : State) :
    exec (.amoandD rd rs2 rs1 aq rl) s = execAmoandD rd rs2 rs1 aq rl s := rfl
theorem exec_amoorD (rd rs2 rs1 : Reg) (aq rl : BitVec 1) (s : State) :
    exec (.amoorD rd rs2 rs1 aq rl) s = execAmoorD rd rs2 rs1 aq rl s := rfl
theorem exec_amominD (rd rs2 rs1 : Reg) (aq rl : BitVec 1) (s : State) :
    exec (.amominD rd rs2 rs1 aq rl) s = execAmominD rd rs2 rs1 aq rl s := rfl
theorem exec_amomaxD (rd rs2 rs1 : Reg) (aq rl : BitVec 1) (s : State) :
    exec (.amomaxD rd rs2 rs1 aq rl) s = execAmomaxD rd rs2 rs1 aq rl s := rfl
theorem exec_amominuD (rd rs2 rs1 : Reg) (aq rl : BitVec 1) (s : State) :
    exec (.amominuD rd rs2 rs1 aq rl) s = execAmominuD rd rs2 rs1 aq rl s := rfl
theorem exec_amomaxuD (rd rs2 rs1 : Reg) (aq rl : BitVec 1) (s : State) :
    exec (.amomaxuD rd rs2 rs1 aq rl) s = execAmomaxuD rd rs2 rs1 aq rl s := rfl
theorem exec_fcvtSD (rd rs1 : Reg) (rm : BitVec 3) (s : State) :
    exec (.fcvtSD rd rs1 rm) s = execFcvtSD rd rs1 rm s := rfl
theorem exec_fcvtDS (rd rs1 : Reg) (rm : BitVec 3) (s : State) :
    exec (.fcvtDS rd rs1 rm) s = execFcvtDS rd rs1 rm s := rfl
theorem exec_fcvtSH (rd rs1 : Reg) (rm : BitVec 3) (s : State) :
    exec (.fcvtSH rd rs1 rm) s = execFcvtSH rd rs1 rm s := rfl
theorem exec_fcvtHS (rd rs1 : Reg) (rm : BitVec 3) (s : State) :
    exec (.fcvtHS rd rs1 rm) s = execFcvtHS rd rs1 rm s := rfl
theorem exec_fcvtDH (rd rs1 : Reg) (rm : BitVec 3) (s : State) :
    exec (.fcvtDH rd rs1 rm) s = execFcvtDH rd rs1 rm s := rfl
theorem exec_fcvtHD (rd rs1 : Reg) (rm : BitVec 3) (s : State) :
    exec (.fcvtHD rd rs1 rm) s = execFcvtHD rd rs1 rm s := rfl
theorem exec_flw (rd rs1 : Reg) (imm : BitVec 12) (s : State) :
    exec (.flw rd rs1 imm) s = execFlw rd rs1 imm s := rfl
theorem exec_fsw (rs2 rs1 : Reg) (imm : BitVec 12) (s : State) :
    exec (.fsw rs2 rs1 imm) s = execFsw rs2 rs1 imm s := rfl
theorem exec_fmaddS (rd rs1 rs2 rs3 : Reg) (rm : BitVec 3) (s : State) :
    exec (.fmaddS rd rs1 rs2 rs3 rm) s = execFmaddS rd rs1 rs2 rs3 rm s := rfl
theorem exec_fmsubS (rd rs1 rs2 rs3 : Reg) (rm : BitVec 3) (s : State) :
    exec (.fmsubS rd rs1 rs2 rs3 rm) s = execFmsubS rd rs1 rs2 rs3 rm s := rfl
theorem exec_fnmsubS (rd rs1 rs2 rs3 : Reg) (rm : BitVec 3) (s : State) :
    exec (.fnmsubS rd rs1 rs2 rs3 rm) s = execFnmsubS rd rs1 rs2 rs3 rm s := rfl
theorem exec_fnmaddS (rd rs1 rs2 rs3 : Reg) (rm : BitVec 3) (s : State) :
    exec (.fnmaddS rd rs1 rs2 rs3 rm) s = execFnmaddS rd rs1 rs2 rs3 rm s := rfl
theorem exec_faddS (rd rs1 rs2 : Reg) (rm : BitVec 3) (s : State) :
    exec (.faddS rd rs1 rs2 rm) s = execFaddS rd rs1 rs2 rm s := rfl
theorem exec_fsubS (rd rs1 rs2 : Reg) (rm : BitVec 3) (s : State) :
    exec (.fsubS rd rs1 rs2 rm) s = execFsubS rd rs1 rs2 rm s := rfl
theorem exec_fmulS (rd rs1 rs2 : Reg) (rm : BitVec 3) (s : State) :
    exec (.fmulS rd rs1 rs2 rm) s = execFmulS rd rs1 rs2 rm s := rfl
theorem exec_fdivS (rd rs1 rs2 : Reg) (rm : BitVec 3) (s : State) :
    exec (.fdivS rd rs1 rs2 rm) s = execFdivS rd rs1 rs2 rm s := rfl
theorem exec_fsqrtS (rd rs1 : Reg) (rm : BitVec 3) (s : State) :
    exec (.fsqrtS rd rs1 rm) s = execFsqrtS rd rs1 rm s := rfl
theorem exec_fsgnjS (rd rs1 rs2 : Reg) (s : State) :
    exec (.fsgnjS rd rs1 rs2) s = execFsgnjS rd rs1 rs2 s := rfl
theorem exec_fsgnjnS (rd rs1 rs2 : Reg) (s : State) :
    exec (.fsgnjnS rd rs1 rs2) s = execFsgnjnS rd rs1 rs2 s := rfl
theorem exec_fsgnjxS (rd rs1 rs2 : Reg) (s : State) :
    exec (.fsgnjxS rd rs1 rs2) s = execFsgnjxS rd rs1 rs2 s := rfl
theorem exec_fminS (rd rs1 rs2 : Reg) (s : State) :
    exec (.fminS rd rs1 rs2) s = execFminS rd rs1 rs2 s := rfl
theorem exec_fmaxS (rd rs1 rs2 : Reg) (s : State) :
    exec (.fmaxS rd rs1 rs2) s = execFmaxS rd rs1 rs2 s := rfl
theorem exec_feqS (rd rs1 rs2 : Reg) (s : State) :
    exec (.feqS rd rs1 rs2) s = execFeqS rd rs1 rs2 s := rfl
theorem exec_fltS (rd rs1 rs2 : Reg) (s : State) :
    exec (.fltS rd rs1 rs2) s = execFltS rd rs1 rs2 s := rfl
theorem exec_fleS (rd rs1 rs2 : Reg) (s : State) :
    exec (.fleS rd rs1 rs2) s = execFleS rd rs1 rs2 s := rfl
theorem exec_fclassS (rd rs1 : Reg) (s : State) :
    exec (.fclassS rd rs1) s = execFclassS rd rs1 s := rfl
theorem exec_fcvtWS (rd rs1 : Reg) (rm : BitVec 3) (s : State) :
    exec (.fcvtWS rd rs1 rm) s = execFcvtWS rd rs1 rm s := rfl
theorem exec_fcvtSW (rd rs1 : Reg) (rm : BitVec 3) (s : State) :
    exec (.fcvtSW rd rs1 rm) s = execFcvtSW rd rs1 rm s := rfl
theorem exec_fcvtWuS (rd rs1 : Reg) (rm : BitVec 3) (s : State) :
    exec (.fcvtWuS rd rs1 rm) s = execFcvtWuS rd rs1 rm s := rfl
theorem exec_fcvtSWu (rd rs1 : Reg) (rm : BitVec 3) (s : State) :
    exec (.fcvtSWu rd rs1 rm) s = execFcvtSWu rd rs1 rm s := rfl
theorem exec_fcvtLS (rd rs1 : Reg) (rm : BitVec 3) (s : State) :
    exec (.fcvtLS rd rs1 rm) s = execFcvtLS rd rs1 rm s := rfl
theorem exec_fcvtSL (rd rs1 : Reg) (rm : BitVec 3) (s : State) :
    exec (.fcvtSL rd rs1 rm) s = execFcvtSL rd rs1 rm s := rfl
theorem exec_fcvtLuS (rd rs1 : Reg) (rm : BitVec 3) (s : State) :
    exec (.fcvtLuS rd rs1 rm) s = execFcvtLuS rd rs1 rm s := rfl
theorem exec_fcvtSLu (rd rs1 : Reg) (rm : BitVec 3) (s : State) :
    exec (.fcvtSLu rd rs1 rm) s = execFcvtSLu rd rs1 rm s := rfl
theorem exec_fmvXW (rd rs1 : Reg) (s : State) :
    exec (.fmvXW rd rs1) s = execFmvXW rd rs1 s := rfl
theorem exec_fmvWX (rd rs1 : Reg) (s : State) :
    exec (.fmvWX rd rs1) s = execFmvWX rd rs1 s := rfl
theorem exec_fld (rd rs1 : Reg) (imm : BitVec 12) (s : State) :
    exec (.fld rd rs1 imm) s = execFld rd rs1 imm s := rfl
theorem exec_fsd (rs2 rs1 : Reg) (imm : BitVec 12) (s : State) :
    exec (.fsd rs2 rs1 imm) s = execFsd rs2 rs1 imm s := rfl
theorem exec_fmaddD (rd rs1 rs2 rs3 : Reg) (rm : BitVec 3) (s : State) :
    exec (.fmaddD rd rs1 rs2 rs3 rm) s = execFmaddD rd rs1 rs2 rs3 rm s := rfl
theorem exec_fmsubD (rd rs1 rs2 rs3 : Reg) (rm : BitVec 3) (s : State) :
    exec (.fmsubD rd rs1 rs2 rs3 rm) s = execFmsubD rd rs1 rs2 rs3 rm s := rfl
theorem exec_fnmsubD (rd rs1 rs2 rs3 : Reg) (rm : BitVec 3) (s : State) :
    exec (.fnmsubD rd rs1 rs2 rs3 rm) s = execFnmsubD rd rs1 rs2 rs3 rm s := rfl
theorem exec_fnmaddD (rd rs1 rs2 rs3 : Reg) (rm : BitVec 3) (s : State) :
    exec (.fnmaddD rd rs1 rs2 rs3 rm) s = execFnmaddD rd rs1 rs2 rs3 rm s := rfl
theorem exec_faddD (rd rs1 rs2 : Reg) (rm : BitVec 3) (s : State) :
    exec (.faddD rd rs1 rs2 rm) s = execFaddD rd rs1 rs2 rm s := rfl
theorem exec_fsubD (rd rs1 rs2 : Reg) (rm : BitVec 3) (s : State) :
    exec (.fsubD rd rs1 rs2 rm) s = execFsubD rd rs1 rs2 rm s := rfl
theorem exec_fmulD (rd rs1 rs2 : Reg) (rm : BitVec 3) (s : State) :
    exec (.fmulD rd rs1 rs2 rm) s = execFmulD rd rs1 rs2 rm s := rfl
theorem exec_fdivD (rd rs1 rs2 : Reg) (rm : BitVec 3) (s : State) :
    exec (.fdivD rd rs1 rs2 rm) s = execFdivD rd rs1 rs2 rm s := rfl
theorem exec_fsqrtD (rd rs1 : Reg) (rm : BitVec 3) (s : State) :
    exec (.fsqrtD rd rs1 rm) s = execFsqrtD rd rs1 rm s := rfl
theorem exec_fsgnjD (rd rs1 rs2 : Reg) (s : State) :
    exec (.fsgnjD rd rs1 rs2) s = execFsgnjD rd rs1 rs2 s := rfl
theorem exec_fsgnjnD (rd rs1 rs2 : Reg) (s : State) :
    exec (.fsgnjnD rd rs1 rs2) s = execFsgnjnD rd rs1 rs2 s := rfl
theorem exec_fsgnjxD (rd rs1 rs2 : Reg) (s : State) :
    exec (.fsgnjxD rd rs1 rs2) s = execFsgnjxD rd rs1 rs2 s := rfl
theorem exec_fminD (rd rs1 rs2 : Reg) (s : State) :
    exec (.fminD rd rs1 rs2) s = execFminD rd rs1 rs2 s := rfl
theorem exec_fmaxD (rd rs1 rs2 : Reg) (s : State) :
    exec (.fmaxD rd rs1 rs2) s = execFmaxD rd rs1 rs2 s := rfl
theorem exec_feqD (rd rs1 rs2 : Reg) (s : State) :
    exec (.feqD rd rs1 rs2) s = execFeqD rd rs1 rs2 s := rfl
theorem exec_fltD (rd rs1 rs2 : Reg) (s : State) :
    exec (.fltD rd rs1 rs2) s = execFltD rd rs1 rs2 s := rfl
theorem exec_fleD (rd rs1 rs2 : Reg) (s : State) :
    exec (.fleD rd rs1 rs2) s = execFleD rd rs1 rs2 s := rfl
theorem exec_fclassD (rd rs1 : Reg) (s : State) :
    exec (.fclassD rd rs1) s = execFclassD rd rs1 s := rfl
theorem exec_fcvtWD (rd rs1 : Reg) (rm : BitVec 3) (s : State) :
    exec (.fcvtWD rd rs1 rm) s = execFcvtWD rd rs1 rm s := rfl
theorem exec_fcvtDW (rd rs1 : Reg) (rm : BitVec 3) (s : State) :
    exec (.fcvtDW rd rs1 rm) s = execFcvtDW rd rs1 rm s := rfl
theorem exec_fcvtWuD (rd rs1 : Reg) (rm : BitVec 3) (s : State) :
    exec (.fcvtWuD rd rs1 rm) s = execFcvtWuD rd rs1 rm s := rfl
theorem exec_fcvtDWu (rd rs1 : Reg) (rm : BitVec 3) (s : State) :
    exec (.fcvtDWu rd rs1 rm) s = execFcvtDWu rd rs1 rm s := rfl
theorem exec_fcvtLD (rd rs1 : Reg) (rm : BitVec 3) (s : State) :
    exec (.fcvtLD rd rs1 rm) s = execFcvtLD rd rs1 rm s := rfl
theorem exec_fcvtDL (rd rs1 : Reg) (rm : BitVec 3) (s : State) :
    exec (.fcvtDL rd rs1 rm) s = execFcvtDL rd rs1 rm s := rfl
theorem exec_fcvtLuD (rd rs1 : Reg) (rm : BitVec 3) (s : State) :
    exec (.fcvtLuD rd rs1 rm) s = execFcvtLuD rd rs1 rm s := rfl
theorem exec_fcvtDLu (rd rs1 : Reg) (rm : BitVec 3) (s : State) :
    exec (.fcvtDLu rd rs1 rm) s = execFcvtDLu rd rs1 rm s := rfl
theorem exec_fmvXD (rd rs1 : Reg) (s : State) :
    exec (.fmvXD rd rs1) s = execFmvXD rd rs1 s := rfl
theorem exec_fmvDX (rd rs1 : Reg) (s : State) :
    exec (.fmvDX rd rs1) s = execFmvDX rd rs1 s := rfl
theorem exec_flh (rd rs1 : Reg) (imm : BitVec 12) (s : State) :
    exec (.flh rd rs1 imm) s = execFlh rd rs1 imm s := rfl
theorem exec_fsh (rs2 rs1 : Reg) (imm : BitVec 12) (s : State) :
    exec (.fsh rs2 rs1 imm) s = execFsh rs2 rs1 imm s := rfl
theorem exec_fmaddH (rd rs1 rs2 rs3 : Reg) (rm : BitVec 3) (s : State) :
    exec (.fmaddH rd rs1 rs2 rs3 rm) s = execFmaddH rd rs1 rs2 rs3 rm s := rfl
theorem exec_fmsubH (rd rs1 rs2 rs3 : Reg) (rm : BitVec 3) (s : State) :
    exec (.fmsubH rd rs1 rs2 rs3 rm) s = execFmsubH rd rs1 rs2 rs3 rm s := rfl
theorem exec_fnmsubH (rd rs1 rs2 rs3 : Reg) (rm : BitVec 3) (s : State) :
    exec (.fnmsubH rd rs1 rs2 rs3 rm) s = execFnmsubH rd rs1 rs2 rs3 rm s := rfl
theorem exec_fnmaddH (rd rs1 rs2 rs3 : Reg) (rm : BitVec 3) (s : State) :
    exec (.fnmaddH rd rs1 rs2 rs3 rm) s = execFnmaddH rd rs1 rs2 rs3 rm s := rfl
theorem exec_faddH (rd rs1 rs2 : Reg) (rm : BitVec 3) (s : State) :
    exec (.faddH rd rs1 rs2 rm) s = execFaddH rd rs1 rs2 rm s := rfl
theorem exec_fsubH (rd rs1 rs2 : Reg) (rm : BitVec 3) (s : State) :
    exec (.fsubH rd rs1 rs2 rm) s = execFsubH rd rs1 rs2 rm s := rfl
theorem exec_fmulH (rd rs1 rs2 : Reg) (rm : BitVec 3) (s : State) :
    exec (.fmulH rd rs1 rs2 rm) s = execFmulH rd rs1 rs2 rm s := rfl
theorem exec_fdivH (rd rs1 rs2 : Reg) (rm : BitVec 3) (s : State) :
    exec (.fdivH rd rs1 rs2 rm) s = execFdivH rd rs1 rs2 rm s := rfl
theorem exec_fsqrtH (rd rs1 : Reg) (rm : BitVec 3) (s : State) :
    exec (.fsqrtH rd rs1 rm) s = execFsqrtH rd rs1 rm s := rfl
theorem exec_fsgnjH (rd rs1 rs2 : Reg) (s : State) :
    exec (.fsgnjH rd rs1 rs2) s = execFsgnjH rd rs1 rs2 s := rfl
theorem exec_fsgnjnH (rd rs1 rs2 : Reg) (s : State) :
    exec (.fsgnjnH rd rs1 rs2) s = execFsgnjnH rd rs1 rs2 s := rfl
theorem exec_fsgnjxH (rd rs1 rs2 : Reg) (s : State) :
    exec (.fsgnjxH rd rs1 rs2) s = execFsgnjxH rd rs1 rs2 s := rfl
theorem exec_fminH (rd rs1 rs2 : Reg) (s : State) :
    exec (.fminH rd rs1 rs2) s = execFminH rd rs1 rs2 s := rfl
theorem exec_fmaxH (rd rs1 rs2 : Reg) (s : State) :
    exec (.fmaxH rd rs1 rs2) s = execFmaxH rd rs1 rs2 s := rfl
theorem exec_feqH (rd rs1 rs2 : Reg) (s : State) :
    exec (.feqH rd rs1 rs2) s = execFeqH rd rs1 rs2 s := rfl
theorem exec_fltH (rd rs1 rs2 : Reg) (s : State) :
    exec (.fltH rd rs1 rs2) s = execFltH rd rs1 rs2 s := rfl
theorem exec_fleH (rd rs1 rs2 : Reg) (s : State) :
    exec (.fleH rd rs1 rs2) s = execFleH rd rs1 rs2 s := rfl
theorem exec_fclassH (rd rs1 : Reg) (s : State) :
    exec (.fclassH rd rs1) s = execFclassH rd rs1 s := rfl
theorem exec_fcvtWH (rd rs1 : Reg) (rm : BitVec 3) (s : State) :
    exec (.fcvtWH rd rs1 rm) s = execFcvtWH rd rs1 rm s := rfl
theorem exec_fcvtHW (rd rs1 : Reg) (rm : BitVec 3) (s : State) :
    exec (.fcvtHW rd rs1 rm) s = execFcvtHW rd rs1 rm s := rfl
theorem exec_fcvtWuH (rd rs1 : Reg) (rm : BitVec 3) (s : State) :
    exec (.fcvtWuH rd rs1 rm) s = execFcvtWuH rd rs1 rm s := rfl
theorem exec_fcvtHWu (rd rs1 : Reg) (rm : BitVec 3) (s : State) :
    exec (.fcvtHWu rd rs1 rm) s = execFcvtHWu rd rs1 rm s := rfl
theorem exec_fcvtLH (rd rs1 : Reg) (rm : BitVec 3) (s : State) :
    exec (.fcvtLH rd rs1 rm) s = execFcvtLH rd rs1 rm s := rfl
theorem exec_fcvtHL (rd rs1 : Reg) (rm : BitVec 3) (s : State) :
    exec (.fcvtHL rd rs1 rm) s = execFcvtHL rd rs1 rm s := rfl
theorem exec_fcvtLuH (rd rs1 : Reg) (rm : BitVec 3) (s : State) :
    exec (.fcvtLuH rd rs1 rm) s = execFcvtLuH rd rs1 rm s := rfl
theorem exec_fcvtHLu (rd rs1 : Reg) (rm : BitVec 3) (s : State) :
    exec (.fcvtHLu rd rs1 rm) s = execFcvtHLu rd rs1 rm s := rfl
theorem exec_fmvXH (rd rs1 : Reg) (s : State) :
    exec (.fmvXH rd rs1) s = execFmvXH rd rs1 s := rfl
theorem exec_fmvHX (rd rs1 : Reg) (s : State) :
    exec (.fmvHX rd rs1) s = execFmvHX rd rs1 s := rfl
theorem exec_fcvtSBf16 (rd rs1 : Reg) (s : State) :
    exec (.fcvtSBf16 rd rs1) s = execFcvtSBf16 rd rs1 s := rfl
theorem exec_fcvtBf16S (rd rs1 : Reg) (s : State) :
    exec (.fcvtBf16S rd rs1) s = execFcvtBf16S rd rs1 s := rfl
theorem exec_add16 (rd rs1 rs2 : Reg) (s : State) :
    exec (.add16 rd rs1 rs2) s = execAdd16 rd rs1 rs2 s := rfl
theorem exec_radd16 (rd rs1 rs2 : Reg) (s : State) :
    exec (.radd16 rd rs1 rs2) s = execRadd16 rd rs1 rs2 s := rfl
theorem exec_uradd16 (rd rs1 rs2 : Reg) (s : State) :
    exec (.uradd16 rd rs1 rs2) s = execUradd16 rd rs1 rs2 s := rfl
theorem exec_kadd16 (rd rs1 rs2 : Reg) (s : State) :
    exec (.kadd16 rd rs1 rs2) s = execKadd16 rd rs1 rs2 s := rfl
theorem exec_ukadd16 (rd rs1 rs2 : Reg) (s : State) :
    exec (.ukadd16 rd rs1 rs2) s = execUkadd16 rd rs1 rs2 s := rfl
theorem exec_sub16 (rd rs1 rs2 : Reg) (s : State) :
    exec (.sub16 rd rs1 rs2) s = execSub16 rd rs1 rs2 s := rfl
theorem exec_rsub16 (rd rs1 rs2 : Reg) (s : State) :
    exec (.rsub16 rd rs1 rs2) s = execRsub16 rd rs1 rs2 s := rfl
theorem exec_ursub16 (rd rs1 rs2 : Reg) (s : State) :
    exec (.ursub16 rd rs1 rs2) s = execUrsub16 rd rs1 rs2 s := rfl
theorem exec_ksub16 (rd rs1 rs2 : Reg) (s : State) :
    exec (.ksub16 rd rs1 rs2) s = execKsub16 rd rs1 rs2 s := rfl
theorem exec_uksub16 (rd rs1 rs2 : Reg) (s : State) :
    exec (.uksub16 rd rs1 rs2) s = execUksub16 rd rs1 rs2 s := rfl
theorem exec_add8 (rd rs1 rs2 : Reg) (s : State) :
    exec (.add8 rd rs1 rs2) s = execAdd8 rd rs1 rs2 s := rfl
theorem exec_radd8 (rd rs1 rs2 : Reg) (s : State) :
    exec (.radd8 rd rs1 rs2) s = execRadd8 rd rs1 rs2 s := rfl
theorem exec_uradd8 (rd rs1 rs2 : Reg) (s : State) :
    exec (.uradd8 rd rs1 rs2) s = execUradd8 rd rs1 rs2 s := rfl
theorem exec_kadd8 (rd rs1 rs2 : Reg) (s : State) :
    exec (.kadd8 rd rs1 rs2) s = execKadd8 rd rs1 rs2 s := rfl
theorem exec_ukadd8 (rd rs1 rs2 : Reg) (s : State) :
    exec (.ukadd8 rd rs1 rs2) s = execUkadd8 rd rs1 rs2 s := rfl
theorem exec_sub8 (rd rs1 rs2 : Reg) (s : State) :
    exec (.sub8 rd rs1 rs2) s = execSub8 rd rs1 rs2 s := rfl
theorem exec_rsub8 (rd rs1 rs2 : Reg) (s : State) :
    exec (.rsub8 rd rs1 rs2) s = execRsub8 rd rs1 rs2 s := rfl
theorem exec_ursub8 (rd rs1 rs2 : Reg) (s : State) :
    exec (.ursub8 rd rs1 rs2) s = execUrsub8 rd rs1 rs2 s := rfl
theorem exec_ksub8 (rd rs1 rs2 : Reg) (s : State) :
    exec (.ksub8 rd rs1 rs2) s = execKsub8 rd rs1 rs2 s := rfl
theorem exec_uksub8 (rd rs1 rs2 : Reg) (s : State) :
    exec (.uksub8 rd rs1 rs2) s = execUksub8 rd rs1 rs2 s := rfl
theorem exec_cras16 (rd rs1 rs2 : Reg) (s : State) :
    exec (.cras16 rd rs1 rs2) s = execCras16 rd rs1 rs2 s := rfl
theorem exec_rcras16 (rd rs1 rs2 : Reg) (s : State) :
    exec (.rcras16 rd rs1 rs2) s = execRcras16 rd rs1 rs2 s := rfl
theorem exec_urcras16 (rd rs1 rs2 : Reg) (s : State) :
    exec (.urcras16 rd rs1 rs2) s = execUrcras16 rd rs1 rs2 s := rfl
theorem exec_kcras16 (rd rs1 rs2 : Reg) (s : State) :
    exec (.kcras16 rd rs1 rs2) s = execKcras16 rd rs1 rs2 s := rfl
theorem exec_ukcras16 (rd rs1 rs2 : Reg) (s : State) :
    exec (.ukcras16 rd rs1 rs2) s = execUkcras16 rd rs1 rs2 s := rfl
theorem exec_crsa16 (rd rs1 rs2 : Reg) (s : State) :
    exec (.crsa16 rd rs1 rs2) s = execCrsa16 rd rs1 rs2 s := rfl
theorem exec_rcrsa16 (rd rs1 rs2 : Reg) (s : State) :
    exec (.rcrsa16 rd rs1 rs2) s = execRcrsa16 rd rs1 rs2 s := rfl
theorem exec_urcrsa16 (rd rs1 rs2 : Reg) (s : State) :
    exec (.urcrsa16 rd rs1 rs2) s = execUrcrsa16 rd rs1 rs2 s := rfl
theorem exec_kcrsa16 (rd rs1 rs2 : Reg) (s : State) :
    exec (.kcrsa16 rd rs1 rs2) s = execKcrsa16 rd rs1 rs2 s := rfl
theorem exec_ukcrsa16 (rd rs1 rs2 : Reg) (s : State) :
    exec (.ukcrsa16 rd rs1 rs2) s = execUkcrsa16 rd rs1 rs2 s := rfl
theorem exec_sra16 (rd rs1 rs2 : Reg) (s : State) :
    exec (.sra16 rd rs1 rs2) s = execSra16 rd rs1 rs2 s := rfl
theorem exec_sra16U (rd rs1 rs2 : Reg) (s : State) :
    exec (.sra16U rd rs1 rs2) s = execSra16U rd rs1 rs2 s := rfl
theorem exec_srl16 (rd rs1 rs2 : Reg) (s : State) :
    exec (.srl16 rd rs1 rs2) s = execSrl16 rd rs1 rs2 s := rfl
theorem exec_srl16U (rd rs1 rs2 : Reg) (s : State) :
    exec (.srl16U rd rs1 rs2) s = execSrl16U rd rs1 rs2 s := rfl
theorem exec_sll16 (rd rs1 rs2 : Reg) (s : State) :
    exec (.sll16 rd rs1 rs2) s = execSll16 rd rs1 rs2 s := rfl
theorem exec_ksll16 (rd rs1 rs2 : Reg) (s : State) :
    exec (.ksll16 rd rs1 rs2) s = execKsll16 rd rs1 rs2 s := rfl
theorem exec_srai16 (rd rs1 : Reg) (imm4u : BitVec 4) (s : State) :
    exec (.srai16 rd rs1 imm4u) s = execSrai16 rd rs1 imm4u s := rfl
theorem exec_srai16U (rd rs1 : Reg) (imm4u : BitVec 4) (s : State) :
    exec (.srai16U rd rs1 imm4u) s = execSrai16U rd rs1 imm4u s := rfl
theorem exec_srli16 (rd rs1 : Reg) (imm4u : BitVec 4) (s : State) :
    exec (.srli16 rd rs1 imm4u) s = execSrli16 rd rs1 imm4u s := rfl
theorem exec_srli16U (rd rs1 : Reg) (imm4u : BitVec 4) (s : State) :
    exec (.srli16U rd rs1 imm4u) s = execSrli16U rd rs1 imm4u s := rfl
theorem exec_slli16 (rd rs1 : Reg) (imm4u : BitVec 4) (s : State) :
    exec (.slli16 rd rs1 imm4u) s = execSlli16 rd rs1 imm4u s := rfl
theorem exec_kslli16 (rd rs1 : Reg) (imm4u : BitVec 4) (s : State) :
    exec (.kslli16 rd rs1 imm4u) s = execKslli16 rd rs1 imm4u s := rfl
theorem exec_kslra16 (rd rs1 rs2 : Reg) (s : State) :
    exec (.kslra16 rd rs1 rs2) s = execKslra16 rd rs1 rs2 s := rfl
theorem exec_kslra16U (rd rs1 rs2 : Reg) (s : State) :
    exec (.kslra16U rd rs1 rs2) s = execKslra16U rd rs1 rs2 s := rfl
theorem exec_cmpeq16 (rd rs1 rs2 : Reg) (s : State) :
    exec (.cmpeq16 rd rs1 rs2) s = execCmpeq16 rd rs1 rs2 s := rfl
theorem exec_scmplt16 (rd rs1 rs2 : Reg) (s : State) :
    exec (.scmplt16 rd rs1 rs2) s = execScmplt16 rd rs1 rs2 s := rfl
theorem exec_scmple16 (rd rs1 rs2 : Reg) (s : State) :
    exec (.scmple16 rd rs1 rs2) s = execScmple16 rd rs1 rs2 s := rfl
theorem exec_ucmplt16 (rd rs1 rs2 : Reg) (s : State) :
    exec (.ucmplt16 rd rs1 rs2) s = execUcmplt16 rd rs1 rs2 s := rfl
theorem exec_ucmple16 (rd rs1 rs2 : Reg) (s : State) :
    exec (.ucmple16 rd rs1 rs2) s = execUcmple16 rd rs1 rs2 s := rfl
theorem exec_cmpeq8 (rd rs1 rs2 : Reg) (s : State) :
    exec (.cmpeq8 rd rs1 rs2) s = execCmpeq8 rd rs1 rs2 s := rfl
theorem exec_scmplt8 (rd rs1 rs2 : Reg) (s : State) :
    exec (.scmplt8 rd rs1 rs2) s = execScmplt8 rd rs1 rs2 s := rfl
theorem exec_scmple8 (rd rs1 rs2 : Reg) (s : State) :
    exec (.scmple8 rd rs1 rs2) s = execScmple8 rd rs1 rs2 s := rfl
theorem exec_ucmplt8 (rd rs1 rs2 : Reg) (s : State) :
    exec (.ucmplt8 rd rs1 rs2) s = execUcmplt8 rd rs1 rs2 s := rfl
theorem exec_ucmple8 (rd rs1 rs2 : Reg) (s : State) :
    exec (.ucmple8 rd rs1 rs2) s = execUcmple8 rd rs1 rs2 s := rfl
theorem exec_khm16 (rd rs1 rs2 : Reg) (s : State) :
    exec (.khm16 rd rs1 rs2) s = execKhm16 rd rs1 rs2 s := rfl
theorem exec_khmx16 (rd rs1 rs2 : Reg) (s : State) :
    exec (.khmx16 rd rs1 rs2) s = execKhmx16 rd rs1 rs2 s := rfl
theorem exec_khm8 (rd rs1 rs2 : Reg) (s : State) :
    exec (.khm8 rd rs1 rs2) s = execKhm8 rd rs1 rs2 s := rfl
theorem exec_khmx8 (rd rs1 rs2 : Reg) (s : State) :
    exec (.khmx8 rd rs1 rs2) s = execKhmx8 rd rs1 rs2 s := rfl
theorem exec_smin16 (rd rs1 rs2 : Reg) (s : State) :
    exec (.smin16 rd rs1 rs2) s = execSmin16 rd rs1 rs2 s := rfl
theorem exec_umin16 (rd rs1 rs2 : Reg) (s : State) :
    exec (.umin16 rd rs1 rs2) s = execUmin16 rd rs1 rs2 s := rfl
theorem exec_smax16 (rd rs1 rs2 : Reg) (s : State) :
    exec (.smax16 rd rs1 rs2) s = execSmax16 rd rs1 rs2 s := rfl
theorem exec_umax16 (rd rs1 rs2 : Reg) (s : State) :
    exec (.umax16 rd rs1 rs2) s = execUmax16 rd rs1 rs2 s := rfl
theorem exec_smin8 (rd rs1 rs2 : Reg) (s : State) :
    exec (.smin8 rd rs1 rs2) s = execSmin8 rd rs1 rs2 s := rfl
theorem exec_umin8 (rd rs1 rs2 : Reg) (s : State) :
    exec (.umin8 rd rs1 rs2) s = execUmin8 rd rs1 rs2 s := rfl
theorem exec_smax8 (rd rs1 rs2 : Reg) (s : State) :
    exec (.smax8 rd rs1 rs2) s = execSmax8 rd rs1 rs2 s := rfl
theorem exec_umax8 (rd rs1 rs2 : Reg) (s : State) :
    exec (.umax8 rd rs1 rs2) s = execUmax8 rd rs1 rs2 s := rfl
theorem exec_sclip16 (rd rs1 : Reg) (imm4u : BitVec 4) (s : State) :
    exec (.sclip16 rd rs1 imm4u) s = execSclip16 rd rs1 imm4u s := rfl
theorem exec_uclip16 (rd rs1 : Reg) (imm4u : BitVec 4) (s : State) :
    exec (.uclip16 rd rs1 imm4u) s = execUclip16 rd rs1 imm4u s := rfl
theorem exec_kabs16 (rd rs1 : Reg) (s : State) :
    exec (.kabs16 rd rs1) s = execKabs16 rd rs1 s := rfl
theorem exec_kabs8 (rd rs1 : Reg) (s : State) :
    exec (.kabs8 rd rs1) s = execKabs8 rd rs1 s := rfl
theorem exec_execIt (index : BitVec 16) (s : State) :
    exec (.execIt index) s = execExecIt index s := rfl
theorem exec_lmw (rb : Reg) (first last : BitVec 5) (form : LsmForm) (paired : Bool) (s : State) :
    exec (.lmw rb first last form paired) s = execLmw rb first last form paired s := rfl
theorem exec_smw (rb : Reg) (first last : BitVec 5) (form : LsmForm) (paired : Bool) (s : State) :
    exec (.smw rb first last form paired) s = execSmw rb first last form paired s := rfl

end Sys2Proof.Machine
end

