-- ==== Sys2Proof/Laws/State.lean ====
section
/-! SUPPORT. One lemma per field for every named update of the state, so that no proof unfolds a record update. -/

namespace Sys2Proof.Machine

/-! ## setHart -/

@[simp] theorem State.setHart_hart (s : State) (h : Hart) : (s.setHart h).hart = h := rfl
@[simp] theorem State.setHart_params (s : State) (h : Hart) : (s.setHart h).params = s.params := rfl
@[simp] theorem State.setHart_parked (s : State) (h : Hart) : (s.setHart h).parked = s.parked := rfl
@[simp] theorem State.setHart_schedule (s : State) (h : Hart) : (s.setHart h).schedule = s.schedule := rfl
@[simp] theorem State.setHart_mem (s : State) (h : Hart) : (s.setHart h).mem = s.mem := rfl
@[simp] theorem State.setHart_resv (s : State) (h : Hart) : (s.setHart h).resv = s.resv := rfl
@[simp] theorem State.setHart_refusedMark (s : State) (h : Hart) : (s.setHart h).refusedMark = s.refusedMark := rfl
@[simp] theorem State.setHart_exited (s : State) (h : Hart) : (s.setHart h).exited = s.exited := rfl
@[simp] theorem State.setHart_draws (s : State) (h : Hart) : (s.setHart h).draws = s.draws := rfl
@[simp] theorem State.setHart_bits (s : State) (h : Hart) : (s.setHart h).bits = s.bits := rfl
@[simp] theorem State.setHart_setHart (s : State) (h k : Hart) : (s.setHart h).setHart k = s.setHart k := rfl

/-! ## setPc -/

@[simp] theorem State.setPc_id {n : Nat} (s : State) (t : BitVec n) : (s.setPc t).hart.id = s.hart.id := rfl
@[simp] theorem State.setPc_pc {n : Nat} (s : State) (t : BitVec n) : (s.setPc t).hart.pc = t.setWidth 64 := rfl
@[simp] theorem State.setPc_x {n : Nat} (s : State) (t : BitVec n) : (s.setPc t).hart.x = s.hart.x := rfl
@[simp] theorem State.setPc_f {n : Nat} (s : State) (t : BitVec n) : (s.setPc t).hart.f = s.hart.f := rfl
@[simp] theorem State.setPc_fflags {n : Nat} (s : State) (t : BitVec n) : (s.setPc t).hart.fflags = s.hart.fflags := rfl
@[simp] theorem State.setPc_frm {n : Nat} (s : State) (t : BitVec n) : (s.setPc t).hart.frm = s.hart.frm := rfl
@[simp] theorem State.setPc_fcsrOpen {n : Nat} (s : State) (t : BitVec n) : (s.setPc t).hart.fcsrOpen = s.hart.fcsrOpen := rfl
@[simp] theorem State.setPc_cycle {n : Nat} (s : State) (t : BitVec n) : (s.setPc t).hart.cycle = s.hart.cycle := rfl
@[simp] theorem State.setPc_time {n : Nat} (s : State) (t : BitVec n) : (s.setPc t).hart.time = s.hart.time := rfl
@[simp] theorem State.setPc_instret {n : Nat} (s : State) (t : BitVec n) : (s.setPc t).hart.instret = s.hart.instret := rfl
@[simp] theorem State.setPc_cycleh {n : Nat} (s : State) (t : BitVec n) : (s.setPc t).hart.cycleh = s.hart.cycleh := rfl
@[simp] theorem State.setPc_timeh {n : Nat} (s : State) (t : BitVec n) : (s.setPc t).hart.timeh = s.hart.timeh := rfl
@[simp] theorem State.setPc_instreth {n : Nat} (s : State) (t : BitVec n) : (s.setPc t).hart.instreth = s.hart.instreth := rfl
@[simp] theorem State.setPc_uitb {n : Nat} (s : State) (t : BitVec n) : (s.setPc t).hart.uitb = s.hart.uitb := rfl
@[simp] theorem State.setPc_ucode {n : Nat} (s : State) (t : BitVec n) : (s.setPc t).hart.ucode = s.hart.ucode := rfl
@[simp] theorem State.setPc_mvendorid {n : Nat} (s : State) (t : BitVec n) : (s.setPc t).hart.mvendorid = s.hart.mvendorid := rfl
@[simp] theorem State.setPc_marchid {n : Nat} (s : State) (t : BitVec n) : (s.setPc t).hart.marchid = s.hart.marchid := rfl
@[simp] theorem State.setPc_mimpid {n : Nat} (s : State) (t : BitVec n) : (s.setPc t).hart.mimpid = s.hart.mimpid := rfl
@[simp] theorem State.setPc_mhartid {n : Nat} (s : State) (t : BitVec n) : (s.setPc t).hart.mhartid = s.hart.mhartid := rfl
@[simp] theorem State.setPc_status {n : Nat} (s : State) (t : BitVec n) : (s.setPc t).hart.status = s.hart.status := rfl
@[simp] theorem State.setPc_te {n : Nat} (s : State) (t : BitVec n) : (s.setPc t).hart.te = s.hart.te := rfl
@[simp] theorem State.setPc_params {n : Nat} (s : State) (t : BitVec n) : (s.setPc t).params = s.params := rfl
@[simp] theorem State.setPc_parked {n : Nat} (s : State) (t : BitVec n) : (s.setPc t).parked = s.parked := rfl
@[simp] theorem State.setPc_schedule {n : Nat} (s : State) (t : BitVec n) : (s.setPc t).schedule = s.schedule := rfl
@[simp] theorem State.setPc_mem {n : Nat} (s : State) (t : BitVec n) : (s.setPc t).mem = s.mem := rfl
@[simp] theorem State.setPc_resv {n : Nat} (s : State) (t : BitVec n) : (s.setPc t).resv = s.resv := rfl
@[simp] theorem State.setPc_refusedMark {n : Nat} (s : State) (t : BitVec n) : (s.setPc t).refusedMark = s.refusedMark := rfl
@[simp] theorem State.setPc_exited {n : Nat} (s : State) (t : BitVec n) : (s.setPc t).exited = s.exited := rfl
@[simp] theorem State.setPc_draws {n : Nat} (s : State) (t : BitVec n) : (s.setPc t).draws = s.draws := rfl
@[simp] theorem State.setPc_bits {n : Nat} (s : State) (t : BitVec n) : (s.setPc t).bits = s.bits := rfl

/-! ## halt -/

@[simp] theorem State.halt_id (s : State) (r : HaltReason) : (s.halt r).hart.id = s.hart.id := rfl
@[simp] theorem State.halt_pc (s : State) (r : HaltReason) : (s.halt r).hart.pc = s.hart.pc := rfl
@[simp] theorem State.halt_x (s : State) (r : HaltReason) : (s.halt r).hart.x = s.hart.x := rfl
@[simp] theorem State.halt_f (s : State) (r : HaltReason) : (s.halt r).hart.f = s.hart.f := rfl
@[simp] theorem State.halt_fflags (s : State) (r : HaltReason) : (s.halt r).hart.fflags = s.hart.fflags := rfl
@[simp] theorem State.halt_frm (s : State) (r : HaltReason) : (s.halt r).hart.frm = s.hart.frm := rfl
@[simp] theorem State.halt_fcsrOpen (s : State) (r : HaltReason) : (s.halt r).hart.fcsrOpen = s.hart.fcsrOpen := rfl
@[simp] theorem State.halt_cycle (s : State) (r : HaltReason) : (s.halt r).hart.cycle = s.hart.cycle := rfl
@[simp] theorem State.halt_time (s : State) (r : HaltReason) : (s.halt r).hart.time = s.hart.time := rfl
@[simp] theorem State.halt_instret (s : State) (r : HaltReason) : (s.halt r).hart.instret = s.hart.instret := rfl
@[simp] theorem State.halt_cycleh (s : State) (r : HaltReason) : (s.halt r).hart.cycleh = s.hart.cycleh := rfl
@[simp] theorem State.halt_timeh (s : State) (r : HaltReason) : (s.halt r).hart.timeh = s.hart.timeh := rfl
@[simp] theorem State.halt_instreth (s : State) (r : HaltReason) : (s.halt r).hart.instreth = s.hart.instreth := rfl
@[simp] theorem State.halt_uitb (s : State) (r : HaltReason) : (s.halt r).hart.uitb = s.hart.uitb := rfl
@[simp] theorem State.halt_ucode (s : State) (r : HaltReason) : (s.halt r).hart.ucode = s.hart.ucode := rfl
@[simp] theorem State.halt_mvendorid (s : State) (r : HaltReason) : (s.halt r).hart.mvendorid = s.hart.mvendorid := rfl
@[simp] theorem State.halt_marchid (s : State) (r : HaltReason) : (s.halt r).hart.marchid = s.hart.marchid := rfl
@[simp] theorem State.halt_mimpid (s : State) (r : HaltReason) : (s.halt r).hart.mimpid = s.hart.mimpid := rfl
@[simp] theorem State.halt_mhartid (s : State) (r : HaltReason) : (s.halt r).hart.mhartid = s.hart.mhartid := rfl
@[simp] theorem State.halt_status (s : State) (r : HaltReason) : (s.halt r).hart.status = .halted r s.hart.pc := rfl
@[simp] theorem State.halt_te (s : State) (r : HaltReason) : (s.halt r).hart.te = s.hart.te := rfl
@[simp] theorem State.halt_params (s : State) (r : HaltReason) : (s.halt r).params = s.params := rfl
@[simp] theorem State.halt_parked (s : State) (r : HaltReason) : (s.halt r).parked = s.parked := rfl
@[simp] theorem State.halt_schedule (s : State) (r : HaltReason) : (s.halt r).schedule = s.schedule := rfl
@[simp] theorem State.halt_mem (s : State) (r : HaltReason) : (s.halt r).mem = s.mem := rfl
@[simp] theorem State.halt_resv (s : State) (r : HaltReason) : (s.halt r).resv = s.resv := rfl
@[simp] theorem State.halt_refusedMark (s : State) (r : HaltReason) : (s.halt r).refusedMark = s.refusedMark := rfl
@[simp] theorem State.halt_exited (s : State) (r : HaltReason) : (s.halt r).exited = s.exited := rfl
@[simp] theorem State.halt_draws (s : State) (r : HaltReason) : (s.halt r).draws = s.draws := rfl
@[simp] theorem State.halt_bits (s : State) (r : HaltReason) : (s.halt r).bits = s.bits := rfl

/-! ## stuck -/

@[simp] theorem State.stuck_id (s : State) : (s.stuck).hart.id = s.hart.id := rfl
@[simp] theorem State.stuck_pc (s : State) : (s.stuck).hart.pc = s.hart.pc := rfl
@[simp] theorem State.stuck_x (s : State) : (s.stuck).hart.x = s.hart.x := rfl
@[simp] theorem State.stuck_f (s : State) : (s.stuck).hart.f = s.hart.f := rfl
@[simp] theorem State.stuck_fflags (s : State) : (s.stuck).hart.fflags = s.hart.fflags := rfl
@[simp] theorem State.stuck_frm (s : State) : (s.stuck).hart.frm = s.hart.frm := rfl
@[simp] theorem State.stuck_fcsrOpen (s : State) : (s.stuck).hart.fcsrOpen = s.hart.fcsrOpen := rfl
@[simp] theorem State.stuck_cycle (s : State) : (s.stuck).hart.cycle = s.hart.cycle := rfl
@[simp] theorem State.stuck_time (s : State) : (s.stuck).hart.time = s.hart.time := rfl
@[simp] theorem State.stuck_instret (s : State) : (s.stuck).hart.instret = s.hart.instret := rfl
@[simp] theorem State.stuck_cycleh (s : State) : (s.stuck).hart.cycleh = s.hart.cycleh := rfl
@[simp] theorem State.stuck_timeh (s : State) : (s.stuck).hart.timeh = s.hart.timeh := rfl
@[simp] theorem State.stuck_instreth (s : State) : (s.stuck).hart.instreth = s.hart.instreth := rfl
@[simp] theorem State.stuck_uitb (s : State) : (s.stuck).hart.uitb = s.hart.uitb := rfl
@[simp] theorem State.stuck_ucode (s : State) : (s.stuck).hart.ucode = s.hart.ucode := rfl
@[simp] theorem State.stuck_mvendorid (s : State) : (s.stuck).hart.mvendorid = s.hart.mvendorid := rfl
@[simp] theorem State.stuck_marchid (s : State) : (s.stuck).hart.marchid = s.hart.marchid := rfl
@[simp] theorem State.stuck_mimpid (s : State) : (s.stuck).hart.mimpid = s.hart.mimpid := rfl
@[simp] theorem State.stuck_mhartid (s : State) : (s.stuck).hart.mhartid = s.hart.mhartid := rfl
@[simp] theorem State.stuck_status (s : State) : (s.stuck).hart.status = .stuck := rfl
@[simp] theorem State.stuck_te (s : State) : (s.stuck).hart.te = s.hart.te := rfl
@[simp] theorem State.stuck_params (s : State) : (s.stuck).params = s.params := rfl
@[simp] theorem State.stuck_parked (s : State) : (s.stuck).parked = s.parked := rfl
@[simp] theorem State.stuck_schedule (s : State) : (s.stuck).schedule = s.schedule := rfl
@[simp] theorem State.stuck_mem (s : State) : (s.stuck).mem = s.mem := rfl
@[simp] theorem State.stuck_resv (s : State) : (s.stuck).resv = s.resv := rfl
@[simp] theorem State.stuck_refusedMark (s : State) : (s.stuck).refusedMark = s.refusedMark := rfl
@[simp] theorem State.stuck_exited (s : State) : (s.stuck).exited = s.exited := rfl
@[simp] theorem State.stuck_draws (s : State) : (s.stuck).draws = s.draws := rfl
@[simp] theorem State.stuck_bits (s : State) : (s.stuck).bits = s.bits := rfl

/-! ## setTe -/

@[simp] theorem State.setTe_id (s : State) (b : Bool) : (s.setTe b).hart.id = s.hart.id := rfl
@[simp] theorem State.setTe_pc (s : State) (b : Bool) : (s.setTe b).hart.pc = s.hart.pc := rfl
@[simp] theorem State.setTe_x (s : State) (b : Bool) : (s.setTe b).hart.x = s.hart.x := rfl
@[simp] theorem State.setTe_f (s : State) (b : Bool) : (s.setTe b).hart.f = s.hart.f := rfl
@[simp] theorem State.setTe_fflags (s : State) (b : Bool) : (s.setTe b).hart.fflags = s.hart.fflags := rfl
@[simp] theorem State.setTe_frm (s : State) (b : Bool) : (s.setTe b).hart.frm = s.hart.frm := rfl
@[simp] theorem State.setTe_fcsrOpen (s : State) (b : Bool) : (s.setTe b).hart.fcsrOpen = s.hart.fcsrOpen := rfl
@[simp] theorem State.setTe_cycle (s : State) (b : Bool) : (s.setTe b).hart.cycle = s.hart.cycle := rfl
@[simp] theorem State.setTe_time (s : State) (b : Bool) : (s.setTe b).hart.time = s.hart.time := rfl
@[simp] theorem State.setTe_instret (s : State) (b : Bool) : (s.setTe b).hart.instret = s.hart.instret := rfl
@[simp] theorem State.setTe_cycleh (s : State) (b : Bool) : (s.setTe b).hart.cycleh = s.hart.cycleh := rfl
@[simp] theorem State.setTe_timeh (s : State) (b : Bool) : (s.setTe b).hart.timeh = s.hart.timeh := rfl
@[simp] theorem State.setTe_instreth (s : State) (b : Bool) : (s.setTe b).hart.instreth = s.hart.instreth := rfl
@[simp] theorem State.setTe_uitb (s : State) (b : Bool) : (s.setTe b).hart.uitb = s.hart.uitb := rfl
@[simp] theorem State.setTe_ucode (s : State) (b : Bool) : (s.setTe b).hart.ucode = s.hart.ucode := rfl
@[simp] theorem State.setTe_mvendorid (s : State) (b : Bool) : (s.setTe b).hart.mvendorid = s.hart.mvendorid := rfl
@[simp] theorem State.setTe_marchid (s : State) (b : Bool) : (s.setTe b).hart.marchid = s.hart.marchid := rfl
@[simp] theorem State.setTe_mimpid (s : State) (b : Bool) : (s.setTe b).hart.mimpid = s.hart.mimpid := rfl
@[simp] theorem State.setTe_mhartid (s : State) (b : Bool) : (s.setTe b).hart.mhartid = s.hart.mhartid := rfl
@[simp] theorem State.setTe_status (s : State) (b : Bool) : (s.setTe b).hart.status = s.hart.status := rfl
@[simp] theorem State.setTe_te (s : State) (b : Bool) : (s.setTe b).hart.te = b := rfl
@[simp] theorem State.setTe_params (s : State) (b : Bool) : (s.setTe b).params = s.params := rfl
@[simp] theorem State.setTe_parked (s : State) (b : Bool) : (s.setTe b).parked = s.parked := rfl
@[simp] theorem State.setTe_schedule (s : State) (b : Bool) : (s.setTe b).schedule = s.schedule := rfl
@[simp] theorem State.setTe_mem (s : State) (b : Bool) : (s.setTe b).mem = s.mem := rfl
@[simp] theorem State.setTe_resv (s : State) (b : Bool) : (s.setTe b).resv = s.resv := rfl
@[simp] theorem State.setTe_refusedMark (s : State) (b : Bool) : (s.setTe b).refusedMark = s.refusedMark := rfl
@[simp] theorem State.setTe_exited (s : State) (b : Bool) : (s.setTe b).exited = s.exited := rfl
@[simp] theorem State.setTe_draws (s : State) (b : Bool) : (s.setTe b).draws = s.draws := rfl
@[simp] theorem State.setTe_bits (s : State) (b : Bool) : (s.setTe b).bits = s.bits := rfl

/-! ## accrue -/

@[simp] theorem State.accrue_id (s : State) (c : FpuCall) : (s.accrue c).hart.id = s.hart.id := rfl
@[simp] theorem State.accrue_pc (s : State) (c : FpuCall) : (s.accrue c).hart.pc = s.hart.pc := rfl
@[simp] theorem State.accrue_x (s : State) (c : FpuCall) : (s.accrue c).hart.x = s.hart.x := rfl
@[simp] theorem State.accrue_f (s : State) (c : FpuCall) : (s.accrue c).hart.f = s.hart.f := rfl
@[simp] theorem State.accrue_fflags (s : State) (c : FpuCall) : (s.accrue c).hart.fflags = s.hart.fflags ||| Config.fpuFlags c := rfl
@[simp] theorem State.accrue_frm (s : State) (c : FpuCall) : (s.accrue c).hart.frm = s.hart.frm := rfl
@[simp] theorem State.accrue_fcsrOpen (s : State) (c : FpuCall) : (s.accrue c).hart.fcsrOpen = s.hart.fcsrOpen := rfl
@[simp] theorem State.accrue_cycle (s : State) (c : FpuCall) : (s.accrue c).hart.cycle = s.hart.cycle := rfl
@[simp] theorem State.accrue_time (s : State) (c : FpuCall) : (s.accrue c).hart.time = s.hart.time := rfl
@[simp] theorem State.accrue_instret (s : State) (c : FpuCall) : (s.accrue c).hart.instret = s.hart.instret := rfl
@[simp] theorem State.accrue_cycleh (s : State) (c : FpuCall) : (s.accrue c).hart.cycleh = s.hart.cycleh := rfl
@[simp] theorem State.accrue_timeh (s : State) (c : FpuCall) : (s.accrue c).hart.timeh = s.hart.timeh := rfl
@[simp] theorem State.accrue_instreth (s : State) (c : FpuCall) : (s.accrue c).hart.instreth = s.hart.instreth := rfl
@[simp] theorem State.accrue_uitb (s : State) (c : FpuCall) : (s.accrue c).hart.uitb = s.hart.uitb := rfl
@[simp] theorem State.accrue_ucode (s : State) (c : FpuCall) : (s.accrue c).hart.ucode = s.hart.ucode := rfl
@[simp] theorem State.accrue_mvendorid (s : State) (c : FpuCall) : (s.accrue c).hart.mvendorid = s.hart.mvendorid := rfl
@[simp] theorem State.accrue_marchid (s : State) (c : FpuCall) : (s.accrue c).hart.marchid = s.hart.marchid := rfl
@[simp] theorem State.accrue_mimpid (s : State) (c : FpuCall) : (s.accrue c).hart.mimpid = s.hart.mimpid := rfl
@[simp] theorem State.accrue_mhartid (s : State) (c : FpuCall) : (s.accrue c).hart.mhartid = s.hart.mhartid := rfl
@[simp] theorem State.accrue_status (s : State) (c : FpuCall) : (s.accrue c).hart.status = s.hart.status := rfl
@[simp] theorem State.accrue_te (s : State) (c : FpuCall) : (s.accrue c).hart.te = s.hart.te := rfl
@[simp] theorem State.accrue_params (s : State) (c : FpuCall) : (s.accrue c).params = s.params := rfl
@[simp] theorem State.accrue_parked (s : State) (c : FpuCall) : (s.accrue c).parked = s.parked := rfl
@[simp] theorem State.accrue_schedule (s : State) (c : FpuCall) : (s.accrue c).schedule = s.schedule := rfl
@[simp] theorem State.accrue_mem (s : State) (c : FpuCall) : (s.accrue c).mem = s.mem := rfl
@[simp] theorem State.accrue_resv (s : State) (c : FpuCall) : (s.accrue c).resv = s.resv := rfl
@[simp] theorem State.accrue_refusedMark (s : State) (c : FpuCall) : (s.accrue c).refusedMark = s.refusedMark := rfl
@[simp] theorem State.accrue_exited (s : State) (c : FpuCall) : (s.accrue c).exited = s.exited := rfl
@[simp] theorem State.accrue_draws (s : State) (c : FpuCall) : (s.accrue c).draws = s.draws := rfl
@[simp] theorem State.accrue_bits (s : State) (c : FpuCall) : (s.accrue c).bits = s.bits := rfl

/-! ## setFLow -/

@[simp] theorem State.setFLow_id (s : State) (r : Reg) (v : Word) : (s.setFLow r v).hart.id = s.hart.id := rfl
@[simp] theorem State.setFLow_pc (s : State) (r : Reg) (v : Word) : (s.setFLow r v).hart.pc = s.hart.pc := rfl
@[simp] theorem State.setFLow_x (s : State) (r : Reg) (v : Word) : (s.setFLow r v).hart.x = s.hart.x := rfl
@[simp] theorem State.setFLow_fflags (s : State) (r : Reg) (v : Word) : (s.setFLow r v).hart.fflags = s.hart.fflags := rfl
@[simp] theorem State.setFLow_frm (s : State) (r : Reg) (v : Word) : (s.setFLow r v).hart.frm = s.hart.frm := rfl
@[simp] theorem State.setFLow_fcsrOpen (s : State) (r : Reg) (v : Word) : (s.setFLow r v).hart.fcsrOpen = s.hart.fcsrOpen := rfl
@[simp] theorem State.setFLow_cycle (s : State) (r : Reg) (v : Word) : (s.setFLow r v).hart.cycle = s.hart.cycle := rfl
@[simp] theorem State.setFLow_time (s : State) (r : Reg) (v : Word) : (s.setFLow r v).hart.time = s.hart.time := rfl
@[simp] theorem State.setFLow_instret (s : State) (r : Reg) (v : Word) : (s.setFLow r v).hart.instret = s.hart.instret := rfl
@[simp] theorem State.setFLow_cycleh (s : State) (r : Reg) (v : Word) : (s.setFLow r v).hart.cycleh = s.hart.cycleh := rfl
@[simp] theorem State.setFLow_timeh (s : State) (r : Reg) (v : Word) : (s.setFLow r v).hart.timeh = s.hart.timeh := rfl
@[simp] theorem State.setFLow_instreth (s : State) (r : Reg) (v : Word) : (s.setFLow r v).hart.instreth = s.hart.instreth := rfl
@[simp] theorem State.setFLow_uitb (s : State) (r : Reg) (v : Word) : (s.setFLow r v).hart.uitb = s.hart.uitb := rfl
@[simp] theorem State.setFLow_ucode (s : State) (r : Reg) (v : Word) : (s.setFLow r v).hart.ucode = s.hart.ucode := rfl
@[simp] theorem State.setFLow_mvendorid (s : State) (r : Reg) (v : Word) : (s.setFLow r v).hart.mvendorid = s.hart.mvendorid := rfl
@[simp] theorem State.setFLow_marchid (s : State) (r : Reg) (v : Word) : (s.setFLow r v).hart.marchid = s.hart.marchid := rfl
@[simp] theorem State.setFLow_mimpid (s : State) (r : Reg) (v : Word) : (s.setFLow r v).hart.mimpid = s.hart.mimpid := rfl
@[simp] theorem State.setFLow_mhartid (s : State) (r : Reg) (v : Word) : (s.setFLow r v).hart.mhartid = s.hart.mhartid := rfl
@[simp] theorem State.setFLow_status (s : State) (r : Reg) (v : Word) : (s.setFLow r v).hart.status = s.hart.status := rfl
@[simp] theorem State.setFLow_te (s : State) (r : Reg) (v : Word) : (s.setFLow r v).hart.te = s.hart.te := rfl
@[simp] theorem State.setFLow_params (s : State) (r : Reg) (v : Word) : (s.setFLow r v).params = s.params := rfl
@[simp] theorem State.setFLow_parked (s : State) (r : Reg) (v : Word) : (s.setFLow r v).parked = s.parked := rfl
@[simp] theorem State.setFLow_schedule (s : State) (r : Reg) (v : Word) : (s.setFLow r v).schedule = s.schedule := rfl
@[simp] theorem State.setFLow_mem (s : State) (r : Reg) (v : Word) : (s.setFLow r v).mem = s.mem := rfl
@[simp] theorem State.setFLow_resv (s : State) (r : Reg) (v : Word) : (s.setFLow r v).resv = s.resv := rfl
@[simp] theorem State.setFLow_refusedMark (s : State) (r : Reg) (v : Word) : (s.setFLow r v).refusedMark = s.refusedMark := rfl
@[simp] theorem State.setFLow_exited (s : State) (r : Reg) (v : Word) : (s.setFLow r v).exited = s.exited := rfl
@[simp] theorem State.setFLow_draws (s : State) (r : Reg) (v : Word) : (s.setFLow r v).draws = s.draws := rfl
@[simp] theorem State.setFLow_bits (s : State) (r : Reg) (v : Word) : (s.setFLow r v).bits = s.bits := rfl

/-! ## writeX -/

@[simp] theorem State.writeX_id {n : Nat} (s : State) (r : Reg) (v : BitVec n) : (s.writeX r v).hart.id = s.hart.id := by
  unfold State.writeX; split <;> rfl
@[simp] theorem State.writeX_pc {n : Nat} (s : State) (r : Reg) (v : BitVec n) : (s.writeX r v).hart.pc = s.hart.pc := by
  unfold State.writeX; split <;> rfl
@[simp] theorem State.writeX_f {n : Nat} (s : State) (r : Reg) (v : BitVec n) : (s.writeX r v).hart.f = s.hart.f := by
  unfold State.writeX; split <;> rfl
@[simp] theorem State.writeX_fflags {n : Nat} (s : State) (r : Reg) (v : BitVec n) : (s.writeX r v).hart.fflags = s.hart.fflags := by
  unfold State.writeX; split <;> rfl
@[simp] theorem State.writeX_frm {n : Nat} (s : State) (r : Reg) (v : BitVec n) : (s.writeX r v).hart.frm = s.hart.frm := by
  unfold State.writeX; split <;> rfl
@[simp] theorem State.writeX_fcsrOpen {n : Nat} (s : State) (r : Reg) (v : BitVec n) : (s.writeX r v).hart.fcsrOpen = s.hart.fcsrOpen := by
  unfold State.writeX; split <;> rfl
@[simp] theorem State.writeX_cycle {n : Nat} (s : State) (r : Reg) (v : BitVec n) : (s.writeX r v).hart.cycle = s.hart.cycle := by
  unfold State.writeX; split <;> rfl
@[simp] theorem State.writeX_time {n : Nat} (s : State) (r : Reg) (v : BitVec n) : (s.writeX r v).hart.time = s.hart.time := by
  unfold State.writeX; split <;> rfl
@[simp] theorem State.writeX_instret {n : Nat} (s : State) (r : Reg) (v : BitVec n) : (s.writeX r v).hart.instret = s.hart.instret := by
  unfold State.writeX; split <;> rfl
@[simp] theorem State.writeX_cycleh {n : Nat} (s : State) (r : Reg) (v : BitVec n) : (s.writeX r v).hart.cycleh = s.hart.cycleh := by
  unfold State.writeX; split <;> rfl
@[simp] theorem State.writeX_timeh {n : Nat} (s : State) (r : Reg) (v : BitVec n) : (s.writeX r v).hart.timeh = s.hart.timeh := by
  unfold State.writeX; split <;> rfl
@[simp] theorem State.writeX_instreth {n : Nat} (s : State) (r : Reg) (v : BitVec n) : (s.writeX r v).hart.instreth = s.hart.instreth := by
  unfold State.writeX; split <;> rfl
@[simp] theorem State.writeX_uitb {n : Nat} (s : State) (r : Reg) (v : BitVec n) : (s.writeX r v).hart.uitb = s.hart.uitb := by
  unfold State.writeX; split <;> rfl
@[simp] theorem State.writeX_ucode {n : Nat} (s : State) (r : Reg) (v : BitVec n) : (s.writeX r v).hart.ucode = s.hart.ucode := by
  unfold State.writeX; split <;> rfl
@[simp] theorem State.writeX_mvendorid {n : Nat} (s : State) (r : Reg) (v : BitVec n) : (s.writeX r v).hart.mvendorid = s.hart.mvendorid := by
  unfold State.writeX; split <;> rfl
@[simp] theorem State.writeX_marchid {n : Nat} (s : State) (r : Reg) (v : BitVec n) : (s.writeX r v).hart.marchid = s.hart.marchid := by
  unfold State.writeX; split <;> rfl
@[simp] theorem State.writeX_mimpid {n : Nat} (s : State) (r : Reg) (v : BitVec n) : (s.writeX r v).hart.mimpid = s.hart.mimpid := by
  unfold State.writeX; split <;> rfl
@[simp] theorem State.writeX_mhartid {n : Nat} (s : State) (r : Reg) (v : BitVec n) : (s.writeX r v).hart.mhartid = s.hart.mhartid := by
  unfold State.writeX; split <;> rfl
@[simp] theorem State.writeX_status {n : Nat} (s : State) (r : Reg) (v : BitVec n) : (s.writeX r v).hart.status = s.hart.status := by
  unfold State.writeX; split <;> rfl
@[simp] theorem State.writeX_te {n : Nat} (s : State) (r : Reg) (v : BitVec n) : (s.writeX r v).hart.te = s.hart.te := by
  unfold State.writeX; split <;> rfl
@[simp] theorem State.writeX_params {n : Nat} (s : State) (r : Reg) (v : BitVec n) : (s.writeX r v).params = s.params := by
  unfold State.writeX; split <;> rfl
@[simp] theorem State.writeX_parked {n : Nat} (s : State) (r : Reg) (v : BitVec n) : (s.writeX r v).parked = s.parked := by
  unfold State.writeX; split <;> rfl
@[simp] theorem State.writeX_schedule {n : Nat} (s : State) (r : Reg) (v : BitVec n) : (s.writeX r v).schedule = s.schedule := by
  unfold State.writeX; split <;> rfl
@[simp] theorem State.writeX_mem {n : Nat} (s : State) (r : Reg) (v : BitVec n) : (s.writeX r v).mem = s.mem := by
  unfold State.writeX; split <;> rfl
@[simp] theorem State.writeX_resv {n : Nat} (s : State) (r : Reg) (v : BitVec n) : (s.writeX r v).resv = s.resv := by
  unfold State.writeX; split <;> rfl
@[simp] theorem State.writeX_refusedMark {n : Nat} (s : State) (r : Reg) (v : BitVec n) : (s.writeX r v).refusedMark = s.refusedMark := by
  unfold State.writeX; split <;> rfl
@[simp] theorem State.writeX_exited {n : Nat} (s : State) (r : Reg) (v : BitVec n) : (s.writeX r v).exited = s.exited := by
  unfold State.writeX; split <;> rfl
@[simp] theorem State.writeX_draws {n : Nat} (s : State) (r : Reg) (v : BitVec n) : (s.writeX r v).draws = s.draws := by
  unfold State.writeX; split <;> rfl
@[simp] theorem State.writeX_bits {n : Nat} (s : State) (r : Reg) (v : BitVec n) : (s.writeX r v).bits = s.bits := by
  unfold State.writeX; split <;> rfl

/-! ## raiseOv -/

@[simp] theorem State.raiseOv_id (s : State) (b : Bool) : (s.raiseOv b).hart.id = s.hart.id := by
  cases b <;> rfl
@[simp] theorem State.raiseOv_pc (s : State) (b : Bool) : (s.raiseOv b).hart.pc = s.hart.pc := by
  cases b <;> rfl
@[simp] theorem State.raiseOv_x (s : State) (b : Bool) : (s.raiseOv b).hart.x = s.hart.x := by
  cases b <;> rfl
@[simp] theorem State.raiseOv_f (s : State) (b : Bool) : (s.raiseOv b).hart.f = s.hart.f := by
  cases b <;> rfl
@[simp] theorem State.raiseOv_fflags (s : State) (b : Bool) : (s.raiseOv b).hart.fflags = s.hart.fflags := by
  cases b <;> rfl
@[simp] theorem State.raiseOv_frm (s : State) (b : Bool) : (s.raiseOv b).hart.frm = s.hart.frm := by
  cases b <;> rfl
@[simp] theorem State.raiseOv_fcsrOpen (s : State) (b : Bool) : (s.raiseOv b).hart.fcsrOpen = s.hart.fcsrOpen := by
  cases b <;> rfl
@[simp] theorem State.raiseOv_cycle (s : State) (b : Bool) : (s.raiseOv b).hart.cycle = s.hart.cycle := by
  cases b <;> rfl
@[simp] theorem State.raiseOv_time (s : State) (b : Bool) : (s.raiseOv b).hart.time = s.hart.time := by
  cases b <;> rfl
@[simp] theorem State.raiseOv_instret (s : State) (b : Bool) : (s.raiseOv b).hart.instret = s.hart.instret := by
  cases b <;> rfl
@[simp] theorem State.raiseOv_cycleh (s : State) (b : Bool) : (s.raiseOv b).hart.cycleh = s.hart.cycleh := by
  cases b <;> rfl
@[simp] theorem State.raiseOv_timeh (s : State) (b : Bool) : (s.raiseOv b).hart.timeh = s.hart.timeh := by
  cases b <;> rfl
@[simp] theorem State.raiseOv_instreth (s : State) (b : Bool) : (s.raiseOv b).hart.instreth = s.hart.instreth := by
  cases b <;> rfl
@[simp] theorem State.raiseOv_uitb (s : State) (b : Bool) : (s.raiseOv b).hart.uitb = s.hart.uitb := by
  cases b <;> rfl
@[simp] theorem State.raiseOv_ucode (s : State) (b : Bool) : (s.raiseOv b).hart.ucode = if b then s.hart.ucode ||| 1 else s.hart.ucode := by
  cases b <;> rfl
@[simp] theorem State.raiseOv_mvendorid (s : State) (b : Bool) : (s.raiseOv b).hart.mvendorid = s.hart.mvendorid := by
  cases b <;> rfl
@[simp] theorem State.raiseOv_marchid (s : State) (b : Bool) : (s.raiseOv b).hart.marchid = s.hart.marchid := by
  cases b <;> rfl
@[simp] theorem State.raiseOv_mimpid (s : State) (b : Bool) : (s.raiseOv b).hart.mimpid = s.hart.mimpid := by
  cases b <;> rfl
@[simp] theorem State.raiseOv_mhartid (s : State) (b : Bool) : (s.raiseOv b).hart.mhartid = s.hart.mhartid := by
  cases b <;> rfl
@[simp] theorem State.raiseOv_status (s : State) (b : Bool) : (s.raiseOv b).hart.status = s.hart.status := by
  cases b <;> rfl
@[simp] theorem State.raiseOv_te (s : State) (b : Bool) : (s.raiseOv b).hart.te = s.hart.te := by
  cases b <;> rfl
@[simp] theorem State.raiseOv_params (s : State) (b : Bool) : (s.raiseOv b).params = s.params := by
  cases b <;> rfl
@[simp] theorem State.raiseOv_parked (s : State) (b : Bool) : (s.raiseOv b).parked = s.parked := by
  cases b <;> rfl
@[simp] theorem State.raiseOv_schedule (s : State) (b : Bool) : (s.raiseOv b).schedule = s.schedule := by
  cases b <;> rfl
@[simp] theorem State.raiseOv_mem (s : State) (b : Bool) : (s.raiseOv b).mem = s.mem := by
  cases b <;> rfl
@[simp] theorem State.raiseOv_resv (s : State) (b : Bool) : (s.raiseOv b).resv = s.resv := by
  cases b <;> rfl
@[simp] theorem State.raiseOv_refusedMark (s : State) (b : Bool) : (s.raiseOv b).refusedMark = s.refusedMark := by
  cases b <;> rfl
@[simp] theorem State.raiseOv_exited (s : State) (b : Bool) : (s.raiseOv b).exited = s.exited := by
  cases b <;> rfl
@[simp] theorem State.raiseOv_draws (s : State) (b : Bool) : (s.raiseOv b).draws = s.draws := by
  cases b <;> rfl
@[simp] theorem State.raiseOv_bits (s : State) (b : Bool) : (s.raiseOv b).bits = s.bits := by
  cases b <;> rfl

/-! ## writeF -/

@[simp] theorem State.writeF_id (s : State) (fmt : Fmt) (r : Reg) (v : BitVec fmt.bits) : (s.writeF fmt r v).hart.id = s.hart.id := by
  cases fmt <;> rfl
@[simp] theorem State.writeF_pc (s : State) (fmt : Fmt) (r : Reg) (v : BitVec fmt.bits) : (s.writeF fmt r v).hart.pc = s.hart.pc := by
  cases fmt <;> rfl
@[simp] theorem State.writeF_x (s : State) (fmt : Fmt) (r : Reg) (v : BitVec fmt.bits) : (s.writeF fmt r v).hart.x = s.hart.x := by
  cases fmt <;> rfl
@[simp] theorem State.writeF_fflags (s : State) (fmt : Fmt) (r : Reg) (v : BitVec fmt.bits) : (s.writeF fmt r v).hart.fflags = s.hart.fflags := by
  cases fmt <;> rfl
@[simp] theorem State.writeF_frm (s : State) (fmt : Fmt) (r : Reg) (v : BitVec fmt.bits) : (s.writeF fmt r v).hart.frm = s.hart.frm := by
  cases fmt <;> rfl
@[simp] theorem State.writeF_fcsrOpen (s : State) (fmt : Fmt) (r : Reg) (v : BitVec fmt.bits) : (s.writeF fmt r v).hart.fcsrOpen = s.hart.fcsrOpen := by
  cases fmt <;> rfl
@[simp] theorem State.writeF_cycle (s : State) (fmt : Fmt) (r : Reg) (v : BitVec fmt.bits) : (s.writeF fmt r v).hart.cycle = s.hart.cycle := by
  cases fmt <;> rfl
@[simp] theorem State.writeF_time (s : State) (fmt : Fmt) (r : Reg) (v : BitVec fmt.bits) : (s.writeF fmt r v).hart.time = s.hart.time := by
  cases fmt <;> rfl
@[simp] theorem State.writeF_instret (s : State) (fmt : Fmt) (r : Reg) (v : BitVec fmt.bits) : (s.writeF fmt r v).hart.instret = s.hart.instret := by
  cases fmt <;> rfl
@[simp] theorem State.writeF_cycleh (s : State) (fmt : Fmt) (r : Reg) (v : BitVec fmt.bits) : (s.writeF fmt r v).hart.cycleh = s.hart.cycleh := by
  cases fmt <;> rfl
@[simp] theorem State.writeF_timeh (s : State) (fmt : Fmt) (r : Reg) (v : BitVec fmt.bits) : (s.writeF fmt r v).hart.timeh = s.hart.timeh := by
  cases fmt <;> rfl
@[simp] theorem State.writeF_instreth (s : State) (fmt : Fmt) (r : Reg) (v : BitVec fmt.bits) : (s.writeF fmt r v).hart.instreth = s.hart.instreth := by
  cases fmt <;> rfl
@[simp] theorem State.writeF_uitb (s : State) (fmt : Fmt) (r : Reg) (v : BitVec fmt.bits) : (s.writeF fmt r v).hart.uitb = s.hart.uitb := by
  cases fmt <;> rfl
@[simp] theorem State.writeF_ucode (s : State) (fmt : Fmt) (r : Reg) (v : BitVec fmt.bits) : (s.writeF fmt r v).hart.ucode = s.hart.ucode := by
  cases fmt <;> rfl
@[simp] theorem State.writeF_mvendorid (s : State) (fmt : Fmt) (r : Reg) (v : BitVec fmt.bits) : (s.writeF fmt r v).hart.mvendorid = s.hart.mvendorid := by
  cases fmt <;> rfl
@[simp] theorem State.writeF_marchid (s : State) (fmt : Fmt) (r : Reg) (v : BitVec fmt.bits) : (s.writeF fmt r v).hart.marchid = s.hart.marchid := by
  cases fmt <;> rfl
@[simp] theorem State.writeF_mimpid (s : State) (fmt : Fmt) (r : Reg) (v : BitVec fmt.bits) : (s.writeF fmt r v).hart.mimpid = s.hart.mimpid := by
  cases fmt <;> rfl
@[simp] theorem State.writeF_mhartid (s : State) (fmt : Fmt) (r : Reg) (v : BitVec fmt.bits) : (s.writeF fmt r v).hart.mhartid = s.hart.mhartid := by
  cases fmt <;> rfl
@[simp] theorem State.writeF_status (s : State) (fmt : Fmt) (r : Reg) (v : BitVec fmt.bits) : (s.writeF fmt r v).hart.status = s.hart.status := by
  cases fmt <;> rfl
@[simp] theorem State.writeF_te (s : State) (fmt : Fmt) (r : Reg) (v : BitVec fmt.bits) : (s.writeF fmt r v).hart.te = s.hart.te := by
  cases fmt <;> rfl
@[simp] theorem State.writeF_params (s : State) (fmt : Fmt) (r : Reg) (v : BitVec fmt.bits) : (s.writeF fmt r v).params = s.params := by
  cases fmt <;> rfl
@[simp] theorem State.writeF_parked (s : State) (fmt : Fmt) (r : Reg) (v : BitVec fmt.bits) : (s.writeF fmt r v).parked = s.parked := by
  cases fmt <;> rfl
@[simp] theorem State.writeF_schedule (s : State) (fmt : Fmt) (r : Reg) (v : BitVec fmt.bits) : (s.writeF fmt r v).schedule = s.schedule := by
  cases fmt <;> rfl
@[simp] theorem State.writeF_mem (s : State) (fmt : Fmt) (r : Reg) (v : BitVec fmt.bits) : (s.writeF fmt r v).mem = s.mem := by
  cases fmt <;> rfl
@[simp] theorem State.writeF_resv (s : State) (fmt : Fmt) (r : Reg) (v : BitVec fmt.bits) : (s.writeF fmt r v).resv = s.resv := by
  cases fmt <;> rfl
@[simp] theorem State.writeF_refusedMark (s : State) (fmt : Fmt) (r : Reg) (v : BitVec fmt.bits) : (s.writeF fmt r v).refusedMark = s.refusedMark := by
  cases fmt <;> rfl
@[simp] theorem State.writeF_exited (s : State) (fmt : Fmt) (r : Reg) (v : BitVec fmt.bits) : (s.writeF fmt r v).exited = s.exited := by
  cases fmt <;> rfl
@[simp] theorem State.writeF_bits (s : State) (fmt : Fmt) (r : Reg) (v : BitVec fmt.bits) : (s.writeF fmt r v).bits = s.bits := by
  cases fmt <;> rfl

/-! ## csrWrite -/

@[simp] theorem State.csrWrite_id {n : Nat} (s : State) (c : Csr) (v : BitVec n) : (s.csrWrite c v).hart.id = s.hart.id := by
  cases c <;> rfl
@[simp] theorem State.csrWrite_pc {n : Nat} (s : State) (c : Csr) (v : BitVec n) : (s.csrWrite c v).hart.pc = s.hart.pc := by
  cases c <;> rfl
@[simp] theorem State.csrWrite_x {n : Nat} (s : State) (c : Csr) (v : BitVec n) : (s.csrWrite c v).hart.x = s.hart.x := by
  cases c <;> rfl
@[simp] theorem State.csrWrite_f {n : Nat} (s : State) (c : Csr) (v : BitVec n) : (s.csrWrite c v).hart.f = s.hart.f := by
  cases c <;> rfl
@[simp] theorem State.csrWrite_status {n : Nat} (s : State) (c : Csr) (v : BitVec n) : (s.csrWrite c v).hart.status = s.hart.status := by
  cases c <;> rfl
@[simp] theorem State.csrWrite_te {n : Nat} (s : State) (c : Csr) (v : BitVec n) : (s.csrWrite c v).hart.te = s.hart.te := by
  cases c <;> rfl
@[simp] theorem State.csrWrite_params {n : Nat} (s : State) (c : Csr) (v : BitVec n) : (s.csrWrite c v).params = s.params := rfl
@[simp] theorem State.csrWrite_parked {n : Nat} (s : State) (c : Csr) (v : BitVec n) : (s.csrWrite c v).parked = s.parked := rfl
@[simp] theorem State.csrWrite_schedule {n : Nat} (s : State) (c : Csr) (v : BitVec n) : (s.csrWrite c v).schedule = s.schedule := rfl
@[simp] theorem State.csrWrite_mem {n : Nat} (s : State) (c : Csr) (v : BitVec n) : (s.csrWrite c v).mem = s.mem := rfl
@[simp] theorem State.csrWrite_resv {n : Nat} (s : State) (c : Csr) (v : BitVec n) : (s.csrWrite c v).resv = s.resv := rfl
@[simp] theorem State.csrWrite_refusedMark {n : Nat} (s : State) (c : Csr) (v : BitVec n) : (s.csrWrite c v).refusedMark = s.refusedMark := rfl
@[simp] theorem State.csrWrite_exited {n : Nat} (s : State) (c : Csr) (v : BitVec n) : (s.csrWrite c v).exited = s.exited := rfl
@[simp] theorem State.csrWrite_draws {n : Nat} (s : State) (c : Csr) (v : BitVec n) : (s.csrWrite c v).draws = s.draws := rfl
@[simp] theorem State.csrWrite_bits {n : Nat} (s : State) (c : Csr) (v : BitVec n) : (s.csrWrite c v).bits = s.bits := rfl

/-! ## takeDraw -/

@[simp] theorem State.takeDraw_hart (s : State) : (s.takeDraw).hart = s.hart := rfl
@[simp] theorem State.takeDraw_params (s : State) : (s.takeDraw).params = s.params := rfl
@[simp] theorem State.takeDraw_parked (s : State) : (s.takeDraw).parked = s.parked := rfl
@[simp] theorem State.takeDraw_schedule (s : State) : (s.takeDraw).schedule = s.schedule := rfl
@[simp] theorem State.takeDraw_mem (s : State) : (s.takeDraw).mem = s.mem := rfl
@[simp] theorem State.takeDraw_resv (s : State) : (s.takeDraw).resv = s.resv := rfl
@[simp] theorem State.takeDraw_refusedMark (s : State) : (s.takeDraw).refusedMark = s.refusedMark := rfl
@[simp] theorem State.takeDraw_exited (s : State) : (s.takeDraw).exited = s.exited := rfl
@[simp] theorem State.takeDraw_draws (s : State) : (s.takeDraw).draws = s.draws + 1 := rfl
@[simp] theorem State.takeDraw_bits (s : State) : (s.takeDraw).bits = s.bits := rfl

/-! ## reserve -/

@[simp] theorem State.reserve_hart (s : State) (a : Nat) : (s.reserve a).hart = s.hart := rfl
@[simp] theorem State.reserve_params (s : State) (a : Nat) : (s.reserve a).params = s.params := rfl
@[simp] theorem State.reserve_parked (s : State) (a : Nat) : (s.reserve a).parked = s.parked := rfl
@[simp] theorem State.reserve_schedule (s : State) (a : Nat) : (s.reserve a).schedule = s.schedule := rfl
@[simp] theorem State.reserve_mem (s : State) (a : Nat) : (s.reserve a).mem = s.mem := rfl
@[simp] theorem State.reserve_resv (s : State) (a : Nat) : (s.reserve a).resv = resvInsert a s.resv := rfl
@[simp] theorem State.reserve_refusedMark (s : State) (a : Nat) : (s.reserve a).refusedMark = s.refusedMark := rfl
@[simp] theorem State.reserve_exited (s : State) (a : Nat) : (s.reserve a).exited = s.exited := rfl
@[simp] theorem State.reserve_draws (s : State) (a : Nat) : (s.reserve a).draws = s.draws := rfl
@[simp] theorem State.reserve_bits (s : State) (a : Nat) : (s.reserve a).bits = s.bits := rfl

/-! ## release -/

@[simp] theorem State.release_hart (s : State) (a : Nat) : (s.release a).hart = s.hart := rfl
@[simp] theorem State.release_params (s : State) (a : Nat) : (s.release a).params = s.params := rfl
@[simp] theorem State.release_parked (s : State) (a : Nat) : (s.release a).parked = s.parked := rfl
@[simp] theorem State.release_schedule (s : State) (a : Nat) : (s.release a).schedule = s.schedule := rfl
@[simp] theorem State.release_mem (s : State) (a : Nat) : (s.release a).mem = s.mem := rfl
@[simp] theorem State.release_resv (s : State) (a : Nat) : (s.release a).resv = s.resv.filter fun b => b != a := rfl
@[simp] theorem State.release_refusedMark (s : State) (a : Nat) : (s.release a).refusedMark = s.refusedMark := rfl
@[simp] theorem State.release_exited (s : State) (a : Nat) : (s.release a).exited = s.exited := rfl
@[simp] theorem State.release_draws (s : State) (a : Nat) : (s.release a).draws = s.draws := rfl
@[simp] theorem State.release_bits (s : State) (a : Nat) : (s.release a).bits = s.bits := rfl

/-! ## refuse -/

@[simp] theorem State.refuse_hart (s : State) (r : Refusal) : (s.refuse r).hart = s.hart := rfl
@[simp] theorem State.refuse_params (s : State) (r : Refusal) : (s.refuse r).params = s.params := rfl
@[simp] theorem State.refuse_parked (s : State) (r : Refusal) : (s.refuse r).parked = s.parked := rfl
@[simp] theorem State.refuse_schedule (s : State) (r : Refusal) : (s.refuse r).schedule = s.schedule := rfl
@[simp] theorem State.refuse_mem (s : State) (r : Refusal) : (s.refuse r).mem = s.mem := rfl
@[simp] theorem State.refuse_resv (s : State) (r : Refusal) : (s.refuse r).resv = s.resv := rfl
@[simp] theorem State.refuse_refusedMark (s : State) (r : Refusal) : (s.refuse r).refusedMark = some r := rfl
@[simp] theorem State.refuse_exited (s : State) (r : Refusal) : (s.refuse r).exited = s.exited := rfl
@[simp] theorem State.refuse_draws (s : State) (r : Refusal) : (s.refuse r).draws = s.draws := rfl
@[simp] theorem State.refuse_bits (s : State) (r : Refusal) : (s.refuse r).bits = s.bits := rfl

/-! ## recording -/

@[simp] theorem State.recording_next (s t : State) : s.recording (.next t) = .next t := rfl
@[simp] theorem State.recording_fault (s : State) (f : Fault) : s.recording (.fault f) = .fault f := rfl
@[simp] theorem State.recording_refused (s : State) (r : Refusal) : s.recording (.refused r) = .next (s.refuse r) := rfl

/-! ## Reads depend on their fields alone -/

theorem State.readX_congr {s t : State} (h : t.hart.x = s.hart.x) (n : Nat) (r : Reg) : t.readX n r = s.readX n r := by
  simp [State.readX, h]

theorem State.readF_congr {s t : State} (h : t.hart.f = s.hart.f) (fmt : Fmt) (r : Reg) : t.readF fmt r = s.readF fmt r := by
  simp [State.readF, h]

theorem State.pcVal_congr {s t : State} (h : t.hart.pc = s.hart.pc) (n : Nat) : t.pcVal n = s.pcVal n := by
  simp [State.pcVal, h]

theorem State.npc_congr {s t : State} (h : t.hart.pc = s.hart.pc) (h' : t.hart.te = s.hart.te) (n : Nat) (l : BitVec n) :
    t.npc n l = s.npc n l := by
  simp [State.npc, State.pcVal, h, h']

end Sys2Proof.Machine
end

