-- ==== Sys2Proof/Laws/Memory.lean ====
section
/-! SUPPORT. The laws of memory: a read after a write, the canonical form kept by every operation, and wide accesses byte by
byte. -/

namespace Sys2Proof.Machine

/-! ## The canonical form as a property of the whole list -/

theorem Memory.wf_iff (m : Memory) :
    m.wf = true ↔ m.Pairwise (fun c d => c.1 < d.1) ∧ ∀ c ∈ m, c.2 ≠ unlistedByte := by
  induction m with
  | nil => simp [Memory.wf]
  | cons c cs ih =>
    cases cs with
    | nil => simp [Memory.wf]
    | cons d ds =>
      simp only [Memory.wf, Bool.and_eq_true, bne_iff_ne, ne_eq, decide_eq_true_eq, ih, List.pairwise_cons, List.mem_cons,
        forall_eq_or_imp]
      constructor
      · rintro ⟨⟨h1, h2⟩, ⟨h3, h4⟩, h5, h6⟩
        exact ⟨⟨⟨h2, fun e he => Nat.lt_trans h2 (h3 e he)⟩, h3, h4⟩, h1, h5, h6⟩
      · rintro ⟨⟨⟨h2, _⟩, h3, h4⟩, h1, h5, h6⟩
        exact ⟨⟨h1, h2⟩, ⟨h3, h4⟩, h5, h6⟩

/-! ## One byte -/

theorem Memory.read_of_absent (m : Memory) (a : Nat) (h : ∀ c ∈ m, c.1 ≠ a) : m.read a = unlistedByte := by
  induction m with
  | nil => rfl
  | cons c cs ih =>
    simp only [List.mem_cons, forall_eq_or_imp] at h
    simp [Memory.read, h.1, ih h.2]

theorem Memory.read_insert_same (m : Memory) (a : Nat) (b : Byte) (h : ∀ c ∈ m, c.1 ≠ a) : (m.insert a b).read a = b := by
  induction m with
  | nil => simp [Memory.insert, Memory.read]
  | cons c cs ih =>
    simp only [List.mem_cons, forall_eq_or_imp] at h
    unfold Memory.insert
    split
    · simp [Memory.read]
    · simp [Memory.read, h.1, ih h.2]

theorem Memory.read_insert_ne (m : Memory) (a x : Nat) (b : Byte) (h : x ≠ a) : (m.insert a b).read x = m.read x := by
  induction m with
  | nil => simp [Memory.insert, Memory.read, Ne.symm h]
  | cons c cs ih =>
    unfold Memory.insert
    split
    · simp [Memory.read, Ne.symm h]
    · simp [Memory.read, ih]

theorem Memory.read_filter_ne (m : Memory) (a x : Nat) (h : x ≠ a) :
    Memory.read (m.filter fun c => c.1 != a) x = m.read x := by
  induction m with
  | nil => rfl
  | cons c cs ih =>
    by_cases hc : c.1 = a
    · have hx : a ≠ x := Ne.symm h
      simp [hc, Memory.read, ih, hx]
    · simp [hc, Memory.read, ih]

theorem Memory.absent_filter (m : Memory) (a : Nat) : ∀ c ∈ m.filter (fun c => c.1 != a), c.1 ≠ a := by
  intro c hc
  simpa using (List.mem_filter.mp hc).2

/-- A read of the byte just written gives it. -/
@[simp] theorem Memory.read_write_same (m : Memory) (a : Nat) (b : Byte) : (m.write a b).read a = b := by
  unfold Memory.write
  split
  · rename_i h
    rw [Memory.read_of_absent _ _ (Memory.absent_filter m a), h]
  · exact Memory.read_insert_same _ _ _ (Memory.absent_filter m a)

/-- A write leaves every other byte alone. -/
theorem Memory.read_write_ne (m : Memory) (a x : Nat) (b : Byte) (h : x ≠ a) : (m.write a b).read x = m.read x := by
  unfold Memory.write
  split
  · exact Memory.read_filter_ne m a x h
  · rw [Memory.read_insert_ne _ _ _ _ h, Memory.read_filter_ne m a x h]

/-! ## The canonical form is kept -/

theorem Memory.mem_insert {m : Memory} {a : Nat} {b : Byte} {c : Host.Cell} (h : c ∈ m.insert a b) : c = (a, b) ∨ c ∈ m := by
  induction m with
  | nil => simpa [Memory.insert] using h
  | cons d ds ih =>
    unfold Memory.insert at h
    split at h
    · simpa using h
    · rcases List.mem_cons.mp h with h | h
      · exact .inr (by simp [h])
      · exact (ih h).imp id fun h => List.mem_cons_of_mem _ h

theorem Memory.pairwise_insert {m : Memory} {a : Nat} {b : Byte} (hm : m.Pairwise fun c d => c.1 < d.1)
    (h : ∀ c ∈ m, c.1 ≠ a) : (m.insert a b).Pairwise fun c d => c.1 < d.1 := by
  induction m with
  | nil => simp [Memory.insert]
  | cons c cs ih =>
    simp only [List.mem_cons, forall_eq_or_imp] at h
    have hp := List.pairwise_cons.mp hm
    unfold Memory.insert
    split
    · rename_i hlt
      refine List.pairwise_cons.mpr ⟨?_, hm⟩
      intro d hd
      rcases List.mem_cons.mp hd with rfl | hd
      · exact hlt
      · exact Nat.lt_trans hlt (hp.1 d hd)
    · rename_i hlt
      refine List.pairwise_cons.mpr ⟨?_, ih hp.2 h.2⟩
      intro d hd
      rcases Memory.mem_insert hd with rfl | hd
      · exact Nat.lt_of_le_of_ne (Nat.not_lt.mp hlt) h.1
      · exact hp.1 d hd

/-- A write keeps the canonical form. -/
theorem Memory.wf_write (m : Memory) (a : Nat) (b : Byte) (h : m.wf = true) : (m.write a b).wf = true := by
  rw [Memory.wf_iff] at h ⊢
  have hp : (m.filter fun c => c.1 != a).Pairwise fun c d => c.1 < d.1 := h.1.sublist List.filter_sublist
  have hn : ∀ c ∈ m.filter (fun c => c.1 != a), c.2 ≠ unlistedByte := fun c hc => h.2 c (List.mem_filter.mp hc).1
  unfold Memory.write
  split
  · exact ⟨hp, hn⟩
  · rename_i hb
    refine ⟨Memory.pairwise_insert hp (Memory.absent_filter m a), fun c hc => ?_⟩
    rcases Memory.mem_insert hc with rfl | hc
    · exact hb
    · exact hn c hc

/-- A write lists no address but its own and the old ones. -/
theorem Memory.mem_write {m : Memory} {a : Nat} {b : Byte} {c : Host.Cell} (h : c ∈ m.write a b) : c.1 = a ∨ c ∈ m := by
  unfold Memory.write at h
  split at h
  · exact .inr (List.mem_filter.mp h).1
  · rcases Memory.mem_insert h with rfl | h
    · exact .inl rfl
    · exact .inr (List.mem_filter.mp h).1

/-! ## Wide accesses -/

theorem Memory.wf_store {n : Nat} (k : Nat) : ∀ (m : Memory) (a : BitVec n) (v : BitVec (8 * k)), m.wf = true →
    (m.store a k v).wf = true := by
  induction k with
  | zero => intro m a v h; exact h
  | succ k ih => intro m a v h; exact ih _ _ _ (Memory.wf_write _ _ _ h)

theorem Memory.mem_store {n : Nat} (k : Nat) : ∀ (m : Memory) (a : BitVec n) (v : BitVec (8 * k)) (c : Host.Cell),
    c ∈ m.store a k v → c.1 < 2 ^ n ∨ c ∈ m := by
  induction k with
  | zero => intro m a v c h; exact .inr h
  | succ k ih =>
    intro m a v c h
    rcases ih _ _ _ _ h with h | h
    · exact .inl h
    · rcases Memory.mem_write h with h | h
      · exact .inl (h ▸ a.isLt)
      · exact .inr h

theorem ofNat_succ_add {n : Nat} (a : BitVec n) (j : Nat) : a + BitVec.ofNat n (j + 1) = a + 1 + BitVec.ofNat n j := by
  rw [Nat.add_comm, ← BitVec.ofNat_add_ofNat, BitVec.add_assoc]
  rfl

/-- A store leaves every byte outside its own alone. -/
theorem Memory.read_store_outside {n : Nat} (k : Nat) : ∀ (m : Memory) (a : BitVec n) (v : BitVec (8 * k)) (x : Nat),
    (∀ j, j < k → x ≠ (a + BitVec.ofNat n j).toNat) → (m.store a k v).read x = m.read x := by
  induction k with
  | zero => intro m a v x _; rfl
  | succ k ih =>
    intro m a v x h
    have h0 : x ≠ a.toNat := by simpa using h 0 (Nat.succ_pos k)
    have hs : ∀ j, j < k → x ≠ (a + 1 + BitVec.ofNat n j).toNat := fun j hj => by
      rw [← ofNat_succ_add]
      exact h (j + 1) (Nat.succ_lt_succ hj)
    simp only [Memory.store]
    rw [ih _ _ _ _ hs, Memory.read_write_ne _ _ _ _ h0]

theorem add_ofNat_ne {n : Nat} (a : BitVec n) (i j : Nat) (hi : i < 2 ^ n) (hj : j < 2 ^ n) (h : i ≠ j) :
    (a + BitVec.ofNat n i).toNat ≠ (a + BitVec.ofNat n j).toNat := by
  intro e
  have e' : a + BitVec.ofNat n i = a + BitVec.ofNat n j := BitVec.eq_of_toNat_eq e
  have e'' : BitVec.ofNat n i = BitVec.ofNat n j := by
    have := congrArg (fun x => x - a) e'
    simpa [BitVec.add_comm a] using this
  have := congrArg BitVec.toNat e''
  simp only [BitVec.toNat_ofNat, Nat.mod_eq_of_lt hi, Nat.mod_eq_of_lt hj] at this
  exact h this

/-- A store puts byte j of the value at the address j further on (spec/20_memory.md R31). -/
theorem Memory.read_store_inside {n : Nat} (k : Nat) : ∀ (m : Memory) (a : BitVec n) (v : BitVec (8 * k)) (j : Nat),
    k ≤ 2 ^ n → j < k → (m.store a k v).read (a + BitVec.ofNat n j).toNat = v.extractLsb' (8 * j) 8 := by
  induction k with
  | zero => intro m a v j _ h; omega
  | succ k ih =>
    intro m a v j hk hj
    simp only [Memory.store]
    cases j with
    | zero =>
      rw [Memory.read_store_outside]
      · rw [show a + BitVec.ofNat n 0 = a by simp, Memory.read_write_same, Nat.mul_zero]
      · intro i hi
        rw [← ofNat_succ_add]
        exact add_ofNat_ne a 0 (i + 1) (by omega) (by omega) (by omega)
    | succ j =>
      rw [ofNat_succ_add, ih _ _ _ _ (by omega) (by omega)]
      ext i hi
      simp only [BitVec.getElem_extractLsb', BitVec.getLsbD_extractLsb']
      have h1 : 8 * j + i < 8 * k := by omega
      simp only [h1, decide_true, Bool.true_and]
      congr 1
      omega

/-- Byte j of a load is the byte at the address j further on (spec/20_memory.md R31). -/
theorem Memory.load_byte {n : Nat} (k : Nat) : ∀ (m : Memory) (a : BitVec n) (j : Nat), j < k →
    (m.load a k).extractLsb' (8 * j) 8 = m.read (a + BitVec.ofNat n j).toNat := by
  induction k with
  | zero => intro m a j h; omega
  | succ k ih =>
    intro m a j hj
    cases j with
    | zero =>
      have : (m.load a (k + 1)).extractLsb' 0 8 = m.read a.toNat := by
        simp only [Memory.load]
        ext i hi
        simp only [BitVec.getElem_extractLsb', Nat.zero_add]
        rw [BitVec.getLsbD_append]
        simp [hi]
      rw [show a + BitVec.ofNat n 0 = a by simp, Nat.mul_zero, this]
    | succ j =>
      rw [ofNat_succ_add, ← ih m (a + 1) j (by omega)]
      simp only [Memory.load]
      ext i hi
      simp only [BitVec.getElem_extractLsb']
      rw [BitVec.getLsbD_append]
      have h1 : ¬ 8 * (j + 1) + i < 8 := by omega
      simp only [h1, if_false]
      congr 1
      omega

/-! ## The reservation set -/

theorem resvWf_iff (l : List Nat) : resvWf l = true ↔ l.Pairwise (· < ·) := by
  induction l with
  | nil => simp [resvWf]
  | cons a as ih =>
    cases as with
    | nil => simp [resvWf]
    | cons b bs =>
      simp only [resvWf, Bool.and_eq_true, decide_eq_true_eq, ih, List.pairwise_cons, List.mem_cons, forall_eq_or_imp]
      constructor
      · rintro ⟨h1, h2, h3⟩
        exact ⟨⟨h1, fun c hc => Nat.lt_trans h1 (h2 c hc)⟩, h2, h3⟩
      · rintro ⟨⟨h1, _⟩, h2, h3⟩
        exact ⟨h1, h2, h3⟩

@[simp] theorem mem_resvInsert (a x : Nat) (l : List Nat) : x ∈ resvInsert a l ↔ x = a ∨ x ∈ l := by
  induction l with
  | nil => simp [resvInsert]
  | cons b bs ih =>
    unfold resvInsert
    split
    · simp
    · split
      · rename_i h; simp [h]
      · simp only [List.mem_cons, ih]
        constructor
        · rintro (h | h | h) <;> simp [h]
        · rintro (h | h | h) <;> simp [h]

theorem resvWf_insert (a : Nat) (l : List Nat) (h : resvWf l = true) : resvWf (resvInsert a l) = true := by
  rw [resvWf_iff] at h ⊢
  induction l with
  | nil => simp [resvInsert]
  | cons b bs ih =>
    have hp := List.pairwise_cons.mp h
    unfold resvInsert
    split
    · rename_i hlt
      refine List.pairwise_cons.mpr ⟨fun c hc => ?_, h⟩
      rcases List.mem_cons.mp hc with rfl | hc
      · exact hlt
      · exact Nat.lt_trans hlt (hp.1 c hc)
    · split
      · exact h
      · refine List.pairwise_cons.mpr ⟨fun c hc => ?_, ih hp.2⟩
        rcases (mem_resvInsert a c bs).mp hc with rfl | hc
        · omega
        · exact hp.1 c hc

theorem resvWf_release (a : Nat) (l : List Nat) (h : resvWf l = true) : resvWf (l.filter fun b => b != a) = true := by
  rw [resvWf_iff] at h ⊢
  exact h.sublist List.filter_sublist

/-- A reservation just made is held (spec/44_atomic.md R178). -/
@[simp] theorem State.reserved_reserve (s : State) (a b : Nat) :
    (s.reserve a).reserved b = (decide (b = a) || s.reserved b) := by
  simp [State.reserved, State.reserve]

/-- A reservation just released is no longer held, and every other stays (spec/44_atomic.md R179). -/
@[simp] theorem State.reserved_release (s : State) (a b : Nat) :
    (s.release a).reserved b = (decide (b ≠ a) && s.reserved b) := by
  rw [Bool.eq_iff_iff]
  simp [State.reserved, State.release, and_comm]

end Sys2Proof.Machine
end

