-- ==== Sys2Proof/Laws/Ops.lean ====
section
/-! SUPPORT. One lemma for each shared operation, saying everything it can do: the statements are proved from these, not from
the definitions. -/

namespace Sys2Proof.Machine

/-! ## Guards -/

theorem naming_of_mayName {rs : List Reg} {s : State} {go : Result} (h : s.mayName rs = true) : naming rs s go = go := by
  unfold naming
  unfold State.mayName at h
  split
  · rename_i hc
    simp only [Bool.and_eq_true, List.any_eq_true] at hc
    obtain ⟨hr, r, hmem, hbit⟩ := hc
    simp only [hr, Bool.not_true, Bool.false_or, List.all_eq_true, decide_eq_true_eq] at h
    have hlt := h r hmem
    have : r.getLsbD 4 = false := by
      rw [BitVec.getLsbD, Nat.testBit_lt_two_pow]
      omega
    rw [this] at hbit
    exact absurd hbit (by decide)
  · rfl

theorem naming_refused {rs : List Reg} {s : State} {go : Result} (h : s.mayName rs = false) :
    naming rs s go = .refused .reducedAbiRegister := by
  unfold naming
  unfold State.mayName at h
  rw [if_pos]
  simp only [Bool.or_eq_false_iff, Bool.not_eq_false'] at h
  obtain ⟨hr, h⟩ := h
  simp only [List.all_eq_false, decide_eq_true_eq, Nat.not_lt] at h
  obtain ⟨r, hmem, hge⟩ := h
  simp only [hr, Bool.true_and, List.any_eq_true]
  refine ⟨r, hmem, ?_⟩
  have hlt := r.isLt
  have h1 : r.toNat / 2 ^ 4 = 1 := by omega
  rw [BitVec.getLsbD, Nat.testBit_eq_decide_div_mod_eq, h1]
  rfl

theorem naming_cases (rs : List Reg) (s : State) (go : Result) :
    naming rs s go = go ∧ s.mayName rs = true ∨ naming rs s go = .refused .reducedAbiRegister ∧ s.mayName rs = false := by
  cases h : s.mayName rs
  · exact .inr ⟨naming_refused h, rfl⟩
  · exact .inl ⟨naming_of_mayName h, rfl⟩

theorem onlyOn_of_eq {x : Xlen} {s : State} {go : Result} (h : s.params.xlen = x) : onlyOn x s go = go := by
  simp [onlyOn, h]

theorem onlyOn_of_ne {x : Xlen} {s : State} {go : Result} (h : s.params.xlen ≠ x) :
    onlyOn x s go = .next (s.haltedFor .illegalInstruction) := by
  simp [onlyOn, h]; rfl

theorem State.halt_eq (s : State) (r : HaltReason) : s.halt r = s.haltedFor r := rfl

theorem State.stuck_eq (s : State) : s.stuck = s.nowStuck := rfl

theorem State.refuse_eq (s : State) (r : Refusal) : s.refuse r = s.refusedFor r := rfl

/-! ## Registers -/

theorem State.readX_zero (s : State) (n : Nat) : s.readX n 0 = 0 := by simp [State.readX]

theorem State.readX_writeX_same {n : Nat} (s : State) (r : Reg) (v : BitVec n) :
    (s.writeX r v).readX 64 r = if r = 0 then 0 else v.setWidth 64 := by
  by_cases h : r = 0
  · subst h; simp [State.readX]
  · simp only [State.readX, State.writeX, if_neg h, State.setHart_hart, Vector.getElem_set_self]
    simp

theorem State.readX_writeX_ne {n : Nat} (s : State) (r q : Reg) (v : BitVec n) (m : Nat) (h : q ≠ r) :
    (s.writeX r v).readX m q = s.readX m q := by
  by_cases hr : r = 0
  · simp [State.writeX, hr]
  · have hne : r.toNat ≠ q.toNat := fun e => h (BitVec.eq_of_toNat_eq e.symm)
    simp only [State.readX, State.writeX, if_neg hr, State.setHart_hart, Vector.getElem_set_ne _ _ hne]

/-- A narrower read is the low bits of the whole register. -/
theorem State.readX_setWidth (s : State) (m : Nat) (r : Reg) : s.readX m r = (s.readX 64 r).setWidth m := by
  by_cases hr : r = 0
  · subst hr; simp [State.readX]
  · simp only [State.readX, if_neg hr]
    simp

theorem State.readX_4_writeX_sp {n : Nat} (s : State) (v : BitVec n) :
    ((s.writeX Reg.sp v).readX 4 Reg.sp).toNat = v.toNat % 16 := by
  rw [State.readX_setWidth, State.readX_writeX_same]
  have : ¬Reg.sp = 0 := by decide
  simp only [this, if_false, BitVec.toNat_setWidth]
  omega

/-! ## The end of an instruction -/

section retire
variable {n : Nat} (s : State) (b : Bool) (t : BitVec n)

theorem State.retire_cases : s.retire b t = s.halt .illegalInstruction ∨ s.retire b t = s.setPc t := by
  unfold State.retire State.commit
  split
  · exact .inl rfl
  · split
    · exact .inl rfl
    · exact .inr rfl

theorem State.retire_frame :
    s.retire b t = { s with hart := { s.hart with pc := (s.retire b t).hart.pc, status := (s.retire b t).hart.status } } := by
  rcases s.retire_cases b t with h | h <;> rw [h] <;> rfl

@[simp] theorem State.retire_x : (s.retire b t).hart.x = s.hart.x := by
  rcases s.retire_cases b t with h | h <;> rw [h] <;> rfl

@[simp] theorem State.retire_f : (s.retire b t).hart.f = s.hart.f := by
  rcases s.retire_cases b t with h | h <;> rw [h] <;> rfl

@[simp] theorem State.retire_fflags : (s.retire b t).hart.fflags = s.hart.fflags := by
  rcases s.retire_cases b t with h | h <;> rw [h] <;> rfl

@[simp] theorem State.retire_ucode : (s.retire b t).hart.ucode = s.hart.ucode := by
  rcases s.retire_cases b t with h | h <;> rw [h] <;> rfl

@[simp] theorem State.retire_te : (s.retire b t).hart.te = s.hart.te := by
  rcases s.retire_cases b t with h | h <;> rw [h] <;> rfl

@[simp] theorem State.retire_mem : (s.retire b t).mem = s.mem := by
  rcases s.retire_cases b t with h | h <;> rw [h] <;> rfl

@[simp] theorem State.retire_resv : (s.retire b t).resv = s.resv := by
  rcases s.retire_cases b t with h | h <;> rw [h] <;> rfl

@[simp] theorem State.retire_params : (s.retire b t).params = s.params := by
  rcases s.retire_cases b t with h | h <;> rw [h] <;> rfl

@[simp] theorem State.retire_parked : (s.retire b t).parked = s.parked := by
  rcases s.retire_cases b t with h | h <;> rw [h] <;> rfl

@[simp] theorem State.retire_draws : (s.retire b t).draws = s.draws := by
  rcases s.retire_cases b t with h | h <;> rw [h] <;> rfl

theorem State.retire_finishes : Finishes s (s.retire b t) (b && s.spMisaligned) t := by
  unfold Finishes State.retire State.commit
  by_cases hb : (b && s.spMisaligned) = true
  · simp [hb]
  · by_cases ht : t = 0
    · simp [ht]
    · simp only [Bool.not_eq_true] at hb
      simp only [hb, Bool.false_eq_true, if_false, if_neg ht, false_or, State.setPc_status, State.setPc_pc, and_self]

end retire

theorem State.retire_writesNothing {n : Nat} (s : State) (t : BitVec n) : WritesNothing s (s.retire false t) t where
  finish := by simpa using s.retire_finishes false t
  bytes := by simp
  frame := s.retire_frame false t

theorem State.proceed_writesNothing {n : Nat} (s : State) (l : BitVec n) : WritesNothing s (s.proceed l) (s.npc n l) :=
  s.retire_writesNothing _

/-- `x[rd] <- v; pc <- t` with its checks. -/
theorem State.intoXThen_writesX {n : Nat} (s : State) (c : Bool) (rd : Reg) (v t : BitVec n) :
    WritesX s (s.intoXThen c rd v t) rd v (c && s.spBad rd v) t where
  result := by
    rw [State.readX_congr (s := s.writeX rd v) (by simp [State.intoXThen]), State.readX_writeX_same]
  others := fun r h => by
    rw [State.readX_congr (s := s.writeX rd v) (by simp [State.intoXThen]), State.readX_writeX_ne _ _ _ _ _ h]
  finish := by
    have h := (s.writeX rd v).retire_finishes (c && rd == Reg.sp) t
    have e : (c && rd == Reg.sp && (s.writeX rd v).spMisaligned) = (c && s.spBad rd v) := by
      by_cases hr : rd = Reg.sp
      · subst hr
        have hz : ((s.writeX Reg.sp v).readX 4 Reg.sp != 0) = (v.toNat % 16 != 0) := by
          rw [← s.readX_4_writeX_sp v, Bool.eq_iff_iff]
          simp [← BitVec.toNat_inj]
        simp only [State.spMisaligned, State.spBad, hz, beq_self_eq_true, Bool.and_true, State.writeX_params]
        rfl
      · have h1 : (rd == Reg.sp) = false := beq_eq_false_iff_ne.mpr hr
        have h2 : (rd == 2) = false := h1
        simp only [State.spBad, h1, h2, Bool.false_and, Bool.and_false]
    rw [e] at h
    simpa [Finishes, State.intoXThen] using h
  bytes := by simp [State.intoXThen]
  frame := by
    have h := (s.writeX rd v).retire_frame (c && rd == Reg.sp) t
    have hx : ∃ x, s.writeX rd v = { s with hart := { s.hart with x := x } } := by
      unfold State.writeX
      split
      · exact ⟨s.hart.x, rfl⟩
      · exact ⟨_, rfl⟩
    obtain ⟨x, hx⟩ := hx
    unfold State.intoXThen
    rw [hx] at h ⊢
    have e : (({ s with hart := { s.hart with x := x } } : State).retire (c && rd == Reg.sp) t).hart.x = x := by simp
    rw [e]
    exact h

theorem State.intoXI_writesX {n : Nat} (s : State) (rd : Reg) (v : BitVec n) :
    WritesX s (s.intoXI rd v) rd v (s.spBad rd v) (s.npc n 4) := by
  simpa [State.intoXI] using s.intoXThen_writesX true rd v (s.npc n 4)

theorem State.intoXC_writesX {n : Nat} (s : State) (rd : Reg) (v : BitVec n) :
    WritesX s (s.intoXC rd v) rd v (s.spBad rd v) (s.npc n 2) := by
  simpa [State.intoXC] using s.intoXThen_writesX true rd v (s.npc n 2)

theorem State.intoX_writesX {n : Nat} (s : State) (rd : Reg) (v : BitVec n) :
    WritesX s (s.intoX rd v) rd v false (s.npc n 4) := by
  simpa [State.intoX] using s.intoXThen_writesX false rd v (s.npc n 4)

/-! ## Memory requests -/

theorem State.loading_admitted {n : Nat} {s : State} {k : Nat} {a : BitVec n} {go : BitVec (8 * k) → State}
    (h : s.params.admits a.toNat k .read = true) : s.loading k a go = go (s.mem.load a k) := by
  simp [State.loading, h]

theorem State.loading_refused {n : Nat} {s : State} {k : Nat} {a : BitVec n} {go : BitVec (8 * k) → State}
    (h : s.params.admits a.toNat k .read = false) : s.loading k a go = s.nowStuck := by
  simp [State.loading, h]; rfl

theorem State.storing_admitted {n : Nat} {s : State} {k : Nat} {a : BitVec n} {v : BitVec (8 * k)} {go : State → State}
    (h : s.params.admits a.toNat k .write = true) :
    s.storing k a v go = go { s with mem := s.mem.store a k v } := by
  simp [State.storing, h]

theorem State.storing_refused {n : Nat} {s : State} {k : Nat} {a : BitVec n} {v : BitVec (8 * k)} {go : State → State}
    (h : s.params.admits a.toNat k .write = false) : s.storing k a v go = s.nowStuck := by
  simp [State.storing, h]; rfl

theorem StoresBytes.of_store {n k : Nat} {s t : State} {a : BitVec n} {v : BitVec (8 * k)} (hk : k ≤ 2 ^ n)
    (h : t.mem = s.mem.store a k v) : StoresBytes s t a v where
  inside := fun j hj => by rw [h]; exact Memory.read_store_inside k _ _ _ _ hk hj
  outside := fun b hb => by rw [h]; exact Memory.read_store_outside k _ _ _ _ hb

/-- A store that then goes on to the next pc. -/
theorem State.store_writesMem {n k : Nat} (s : State) (a : BitVec n) (v : BitVec (8 * k)) (l : BitVec n) (hk : k ≤ 2 ^ n) :
    WritesMem s (({ s with mem := s.mem.store a k v } : State).proceed l) a v (s.npc n l) where
  stored := .of_store hk (by simp [State.proceed])
  finish := (State.proceed_writesNothing ({ s with mem := s.mem.store a k v } : State) l).finish
  frame := by
    have h := (State.proceed_writesNothing ({ s with mem := s.mem.store a k v } : State) l).frame
    have e : (({ s with mem := s.mem.store a k v } : State).proceed l).mem = s.mem.store a k v := by simp [State.proceed]
    rw [e]
    exact h

theorem State.bytes_le_space (s : State) (k : Nat) (h : k ≤ 2 ^ 32) : k ≤ 2 ^ s.bits := by
  unfold State.bits
  cases s.params.xlen
  · exact h
  · exact Nat.le_trans h (by decide)

/-! ## Jumps -/

theorem linking_plain {s : State} {n : Nat} {rd : Reg} {go : BitVec n → State} (h : s.hart.te = false) :
    s.linking n rd go = .next (go (s.pcVal n + 4)) := by
  simp [State.linking, h]

theorem linking_x0 {s : State} {n : Nat} {go : BitVec n → State} :
    s.linking n 0 go = .next (go (s.pcVal n + 4)) := by
  simp [State.linking]

theorem linking_supplied {s : State} {n : Nat} {rd : Reg} {go : BitVec n → State} {o : ExecItLink} (h : s.hart.te = true)
    (hr : rd ≠ 0) (ho : s.params.execItLink = some o) :
    s.linking n rd go = .next (go (s.tableLink n rd o)) := by
  have hr' : (rd != 0) = true := bne_iff_ne.mpr hr
  simp only [State.linking, h, hr', ho, Bool.and_self, if_true]

theorem linking_open {s : State} {n : Nat} {rd : Reg} {go : BitVec n → State} (h : s.hart.te = true)
    (hr : rd ≠ 0) (ho : s.params.execItLink = none) : s.linking n rd go = .refused .execItLinkOpen := by
  have hr' : (rd != 0) = true := bne_iff_ne.mpr hr
  simp only [State.linking, h, hr', ho, Bool.and_self, if_true]

/-! ## Floating point -/

theorem rounding_some {rm : BitVec 3} {s : State} {go : Rm → State} {m : Rm} (h : s.rmEff rm = some m) :
    rounding rm s go = .next (go m) := by
  simp [rounding, h]

theorem rounding_none {rm : BitVec 3} {s : State} {go : Rm → State} (h : s.rmEff rm = none) :
    rounding rm s go = .refused .reservedRoundingMode := by
  simp [rounding, h]

theorem State.readF_writeF_same (s : State) (fmt : Fmt) (r : Reg) (v : BitVec fmt.bits) :
    (s.writeF fmt r v).readF fmt r = v := by
  cases fmt <;>
    (simp only [State.readF, State.writeF, State.setFLow, State.takeDraw, State.setHart, Vector.getElem_set_self]
     ext i hi
     simp only [BitVec.getElem_setWidth, BitVec.getLsbD_append, BitVec.getLsbD_or, BitVec.getLsbD_shiftLeft,
       BitVec.getLsbD_setWidth]
     have hi' : i < 64 := by simp only [Fmt.bits] at hi; omega
     simp [hi, hi', BitVec.getLsbD_eq_getElem])

theorem State.writeF_others (s : State) (fmt : Fmt) (r q : Reg) (v : BitVec fmt.bits) (h : q ≠ r) :
    (s.writeF fmt r v).hart.f[q.toNat]'q.isLt = s.hart.f[q.toNat]'q.isLt := by
  have hne : r.toNat ≠ q.toNat := fun e => h (BitVec.eq_of_toNat_eq e.symm)
  cases fmt <;> simp [State.writeF, State.setFLow, State.takeDraw, State.setHart, Vector.getElem_set_ne, hne]

theorem State.writeF_upper (s : State) (fmt : Fmt) (r : Reg) (v : BitVec fmt.bits) :
    ((s.writeF fmt r v).hart.f[r.toNat]'r.isLt).extractLsb' 64 64 = (s.hart.f[r.toNat]'r.isLt).extractLsb' 64 64 := by
  cases fmt <;>
    (simp only [State.writeF, State.setFLow, State.takeDraw, State.setHart, Vector.getElem_set_self]
     ext i hi
     have h1 : ¬64 + i < 64 := by omega
     simp only [BitVec.getElem_extractLsb', BitVec.getLsbD_append, h1, if_false, BitVec.getLsbD_extractLsb',
       Nat.add_sub_cancel_left, hi, decide_true, Bool.true_and])

theorem State.writeF_middle (s : State) (fmt : Fmt) (r : Reg) (v : BitVec fmt.bits) :
    ((s.writeF fmt r v).hart.f[r.toNat]'r.isLt).extractLsb' fmt.bits (64 - fmt.bits) =
      (Config.draw s.draws).extractLsb' fmt.bits (64 - fmt.bits) := by
  have key : ∀ w i : Nat, ∀ x : BitVec w, ∀ u : Word, i < 64 - w →
      (u >>> w <<< w ||| x.setWidth 64).getLsbD (w + i) = u.getLsbD (w + i) := by
    intro w i x u hi
    have h1 : w + i < 64 := by omega
    simp [h1]
  cases fmt
  case d => exact Subsingleton.elim (α := BitVec 0) _ _
  all_goals
    simp only [State.writeF, State.setFLow, State.takeDraw, State.setHart, Vector.getElem_set_self, State.drawn]
    ext i hi
    have h1 : Fmt.bits _ + i < 64 := Nat.add_lt_of_lt_sub' hi
    simp only [BitVec.getElem_extractLsb', BitVec.getLsbD_append, if_pos h1]
    exact key _ i v (Config.draw s.draws) hi

theorem State.writeF_draws (s : State) (fmt : Fmt) (r : Reg) (v : BitVec fmt.bits) :
    (s.writeF fmt r v).draws = s.draws + (if fmt = .d then 0 else 1) := by
  cases fmt <;> rfl

theorem State.writeF_frame (s : State) (fmt : Fmt) (r : Reg) (v : BitVec fmt.bits) :
    ∃ f d, s.writeF fmt r v = { s with draws := d, hart := { s.hart with f := f } } := by
  cases fmt <;> exact ⟨_, _, rfl⟩

/-- `f[rd] <- v; pc <- npc`. -/
theorem State.intoF_writesF {n : Nat} (s : State) (fmt : Fmt) (l : BitVec n) (rd : Reg) (v : BitVec fmt.bits) :
    WritesF s (s.intoF fmt l rd v) fmt rd v 0 (s.npc n l) where
  result := by
    rw [State.readF_congr (s := s.writeF fmt rd v) (by simp [State.intoF, State.proceed]), State.readF_writeF_same]
  middle := by
    have := s.writeF_middle fmt rd v
    simpa [State.intoF, State.proceed] using this
  upper := by
    have := s.writeF_upper fmt rd v
    simpa [State.intoF, State.proceed] using this
  others := fun r h => by
    have := s.writeF_others fmt rd r v h
    simpa [State.intoF, State.proceed] using this
  accrued := by simp [State.intoF, State.proceed]
  draws := by
    have := s.writeF_draws fmt rd v
    simpa [State.intoF, State.proceed] using this
  finish := by
    have h := ((s.writeF fmt rd v).proceed_writesNothing l).finish
    have e : (s.writeF fmt rd v).npc n l = s.npc n l := State.npc_congr (by simp) (by simp) n l
    rw [e] at h
    simpa [Finishes, State.intoF] using h
  bytes := by simp [State.intoF, State.proceed]
  frame := by
    have h := ((s.writeF fmt rd v).proceed_writesNothing l).frame
    obtain ⟨f, d, hx⟩ := s.writeF_frame fmt rd v
    unfold State.intoF
    rw [hx] at h ⊢
    have e1 : (({ s with draws := d, hart := { s.hart with f := f } } : State).proceed l).hart.f = f := by
      simp [State.proceed]
    have e2 : (({ s with draws := d, hart := { s.hart with f := f } } : State).proceed l).draws = d := by
      simp [State.proceed]
    have e3 : (({ s with draws := d, hart := { s.hart with f := f } } : State).proceed l).hart.fflags = s.hart.fflags := by
      simp [State.proceed]
    rw [e1, e2, e3]
    exact h

/-- `f[rd] <- v; fflags <- fflags OR FPU.flags(call); pc <- npc`. -/
theorem State.intoFpu_writesF (s : State) (fmt : Fmt) (rd : Reg) (call : FpuCall) (v : BitVec fmt.bits) :
    WritesF s (s.intoFpu fmt rd call v) fmt rd v (Config.fpuFlags call) (s.npc s.bits 4) := by
  have h := (s.accrue call).intoF_writesF fmt (4 : BitVec s.bits) rd v
  exact
    { result := h.result, middle := h.middle, upper := h.upper, others := h.others
      accrued := by simpa [State.intoFpu] using h.accrued
      draws := h.draws, finish := h.finish, bytes := h.bytes
      frame := h.frame }

/-! ## Lanes -/

/-- Lane i of a value given by its lanes. -/
theorem lane_ofLanes (n w : Nat) (f : Nat → BitVec w) (k : Nat) (hk : w * k ≤ n) (i : Nat) (hi : i < k) :
    lane w (ofLanes n w f k) i = f i := by
  induction k with
  | zero => omega
  | succ k ih =>
    have hk' : w * k + w ≤ n := by rw [Nat.mul_succ] at hk; exact hk
    ext j hj
    simp only [lane, ofLanes, BitVec.getElem_extractLsb', BitVec.getLsbD_or, BitVec.getLsbD_shiftLeft,
      BitVec.getLsbD_setWidth]
    rcases Nat.lt_succ_iff_lt_or_eq.mp hi with hi' | rfl
    · have hle : w * i + w ≤ w * k := by rw [← Nat.mul_succ]; exact Nat.mul_le_mul_left w hi'
      have h1 : w * i + j < w * k := by omega
      have := congrArg (fun x => x.getLsbD j) (ih (by omega) hi')
      simp only [lane, BitVec.getLsbD_extractLsb', hj, decide_true, Bool.true_and] at this
      simp [h1, this, BitVec.getLsbD_eq_getElem hj]
    · have hz : (ofLanes n w f i).getLsbD (w * i + j) = false := by
        clear ih hi hk hk'
        have : ∀ m p, w * m ≤ p → (ofLanes n w f m).getLsbD p = false := by
          intro m
          induction m with
          | zero => intro p _; simp [ofLanes]
          | succ m ihm =>
            intro p hp
            rw [Nat.mul_succ] at hp
            have h2 : ¬p - w * m < w := by omega
            simp only [ofLanes, BitVec.getLsbD_or, BitVec.getLsbD_shiftLeft, BitVec.getLsbD_setWidth, ihm p (by omega),
              Bool.false_or]
            rw [BitVec.getLsbD_of_ge (f m) _ (by omega)]
            simp
        exact this i _ (by omega)
      have h1 : w * i + j < n := by omega
      have h2 : ¬w * i + j < w * i := by omega
      have h3 : w * i + j - w * i = j := by omega
      have h4 : j < n := by omega
      have h5 : (ofLanes n w f i)[w * i + j] = false := by rw [← BitVec.getLsbD_eq_getElem h1]; exact hz
      have h6 : decide (w * i + j < w * i) = false := decide_eq_false h2
      simp [h5, h6, h1, h3, h4, BitVec.getLsbD_eq_getElem hj]

theorem anyLane_iff (p : Nat → Bool) (k : Nat) : anyLane p k = true ↔ ∃ i, i < k ∧ p i = true := by
  induction k with
  | zero => simp [anyLane]
  | succ k ih =>
    simp only [anyLane, Bool.or_eq_true, ih]
    constructor
    · rintro (⟨i, hi, h⟩ | h)
      · exact ⟨i, by omega, h⟩
      · exact ⟨k, by omega, h⟩
    · rintro ⟨i, hi, h⟩
      rcases Nat.lt_succ_iff_lt_or_eq.mp hi with hi | rfl
      · exact .inl ⟨i, hi, h⟩
      · exact .inr h

/-- The lanes of a register fill it: XLEN is a multiple of 8 and of 16. -/
theorem State.lanes_fill (s : State) (w : Nat) (h : w = 8 ∨ w = 16) : w * (s.bits / w) = s.bits := by
  unfold State.bits
  rcases h with rfl | rfl <;> cases s.params.xlen <;> rfl

/-- A packed instruction: its lanes, OV, and nothing else. -/
theorem packed_writesX (w : Nat) (names : List Reg) (rd : Reg) (s : State) (f : Nat → BitVec w × Bool)
    (h : s.mayName names = true) :
    ∃ t v, packed w names rd s f = .next t ∧
      (w * (s.bits / w) ≤ s.bits → ∀ i, i < s.bits / w → lane w v i = (f i).1) ∧
      WritesX (s.raiseOv (anyLane (fun i => (f i).2) (s.bits / w))) t rd (v : BitVec s.bits) false (s.npc s.bits 4) := by
  refine ⟨_, _, naming_of_mayName h, fun hw i hi => lane_ofLanes s.bits w _ _ hw i hi, ?_⟩
  have hw := (s.raiseOv (anyLane (fun i => (f i).2) (s.bits / w))).intoX_writesX rd
    (ofLanes s.bits w (fun i => (f i).1) (s.bits / w))
  have e : (s.raiseOv (anyLane (fun i => (f i).2) (s.bits / w))).npc s.bits 4 = s.npc s.bits 4 :=
    State.npc_congr (by simp) (by simp) _ _
  rwa [e] at hw

end Sys2Proof.Machine
end

