-- ==== Sys2Proof/Laws/Shapes.lean ====
section
/-! SUPPORT. One lemma per shape of instruction: the next state it answers and what that state holds. -/

namespace Sys2Proof.Machine

/-- The outcome is a next state with a property; `Completes` is this of `exec`. -/
def NextWith (r : Result) (p : State → Prop) : Prop := ∃ t, r = .next t ∧ p t

theorem NextWith.intro {r : Result} {p : State → Prop} {t : State} (h : r = .next t) (hp : p t) : NextWith r p := ⟨t, h, hp⟩

theorem Completes.of {i : Instr} {s : State} {r : Result} {p : State → Prop} (h : exec i s = r) (hp : NextWith r p) :
    Completes i s p := by
  subst h; exact hp

theorem NextWith.naming {rs : List Reg} {s : State} {go : Result} {p : State → Prop} (h : s.mayName rs = true)
    (hp : NextWith go p) : NextWith (Machine.naming rs s go) p := by
  rw [naming_of_mayName h]; exact hp

theorem NextWith.onlyOn {x : Xlen} {s : State} {go : Result} {p : State → Prop} (h : s.params.xlen = x)
    (hp : NextWith go p) : NextWith (Machine.onlyOn x s go) p := by
  rw [onlyOn_of_eq h]; exact hp

theorem mayName_of_subset {s : State} {a b : List Reg} (h : s.mayName b = true) (hs : ∀ r ∈ a, r ∈ b) : s.mayName a = true := by
  unfold State.mayName at *
  cases h2 : s.params.reducedAbi
  · rfl
  · rw [h2] at h
    simp only [Bool.not_true, Bool.false_or, List.all_eq_true] at h ⊢
    exact fun r hr => h r (hs r hr)

/-! ## Operand forms -/

theorem State.bits_le (s : State) : s.bits ≤ 64 := by unfold State.bits; cases s.params.xlen <;> decide

theorem State.le_bits (s : State) : 32 ≤ s.bits := by unfold State.bits; cases s.params.xlen <;> decide

theorem State.bits_rv32 {s : State} (h : s.params.xlen = .rv32) : s.bits = 32 := by unfold State.bits; rw [h]; rfl

theorem State.bits_rv64 {s : State} (h : s.params.xlen = .rv64) : s.bits = 64 := by unfold State.bits; rw [h]; rfl

theorem append_zero_width {w : Nat} (f : BitVec w) : f ++ 0#0 = f := by ext i hi; simp

theorem signedImm_zero {w n : Nat} (f : BitVec w) : signedImm n 0 f = f.signExtend n := by
  unfold signedImm
  rw [append_zero_width]

theorem unsignedImm_zero {w n : Nat} (f : BitVec w) : unsignedImm n 0 f = f.setWidth n := by
  unfold unsignedImm
  rw [append_zero_width]

/-- A narrower read is the low bits of a wider one. -/
theorem State.readX_narrow (s : State) {m n : Nat} (h : m ≤ n) (r : Reg) : s.readX m r = (s.readX n r).setWidth m := by
  rw [s.readX_setWidth n, s.readX_setWidth m, BitVec.setWidth_setWidth_of_le _ h]

theorem State.readX_low (s : State) {m : Nat} (h : m ≤ 32) (r : Reg) : s.readX m r = (s.readX s.bits r).setWidth m :=
  s.readX_narrow (Nat.le_trans h s.le_bits) r

theorem State.shiftAmount_eq (s : State) (r : Reg) : s.shiftAmount r = (s.readX s.bits r).toNat % s.bits := by
  unfold State.shiftAmount
  have hb : s.bits = s.params.xlen.bits := rfl
  cases h : s.params.xlen <;> rw [h] at hb <;> simp only
  · rw [s.readX_low (by omega), BitVec.toNat_setWidth, hb]; rfl
  · rw [s.readX_low (by omega), BitVec.toNat_setWidth, hb]; rfl

theorem State.shamtLegal_of_lt {s : State} {shamt : BitVec 6} (h : shamt.toNat < s.bits) : s.shamtLegal shamt = true := by
  unfold State.shamtLegal
  have hb : s.bits = s.params.xlen.bits := rfl
  cases hx : s.params.xlen
  · rw [hb, hx] at h
    simp only [Xlen.bits] at h
    simp only [BitVec.getLsbD, Nat.testBit_eq_decide_div_mod_eq, Bool.or_eq_true, beq_iff_eq]
    right
    rw [decide_eq_false (by omega)]; rfl
  · rfl

theorem State.shamtLegal_false {s : State} {shamt : BitVec 6} (hx : s.params.xlen = .rv32) (h : shamt.getLsbD 5 = true) :
    s.shamtLegal shamt = false := by
  simp [State.shamtLegal, hx, h]

theorem ofBool_slt {n m : Nat} (a b : BitVec n) : ofBool m (a.slt b) = if a.toInt < b.toInt then 1 else 0 := by
  simp [ofBool, BitVec.slt]

theorem ofBool_ult {n m : Nat} (a b : BitVec n) : ofBool m (a.ult b) = if a.toNat < b.toNat then 1 else 0 := by
  simp [ofBool, BitVec.ult]

theorem addrI_eq (s : State) (n : Nat) (r : Reg) (imm : BitVec 12) : s.addrI n r imm = s.readX n r + imm.signExtend n := by
  rw [State.addrI, signedImm_zero]

/-! ## Writing one general register -/

section writes
variable {n : Nat} {s : State} {rd : Reg} {v w : BitVec n}

theorem NextWith.intoXThen {a b : BitVec n} (e : v = w) (ea : a = b) :
    NextWith (.next (s.intoXThen true rd v a)) fun t => WritesX s t rd w (s.spBad rd w) b := by
  subst e ea
  have h := s.intoXThen_writesX true rd v a
  rw [Bool.true_and] at h
  exact ⟨_, rfl, h⟩

theorem NextWith.intoXI (e : v = w) :
    NextWith (.next (s.intoXI rd v)) fun t => WritesX s t rd w (s.spBad rd w) (s.npc n 4) := by
  subst e; exact ⟨_, rfl, s.intoXI_writesX rd v⟩

theorem NextWith.intoXC (e : v = w) :
    NextWith (.next (s.intoXC rd v)) fun t => WritesX s t rd w (s.spBad rd w) (s.npc n 2) := by
  subst e; exact ⟨_, rfl, s.intoXC_writesX rd v⟩

theorem NextWith.intoX (e : v = w) :
    NextWith (.next (s.intoX rd v)) fun t => WritesX s t rd w false (s.npc n 4) := by
  subst e; exact ⟨_, rfl, s.intoX_writesX rd v⟩

end writes

theorem regOp_writes {rd rs1 rs2 : Reg} {s : State} {f : BitVec s.bits → BitVec s.bits → BitVec s.bits} {w : BitVec s.bits}
    (h : s.mayName [rd, rs1, rs2] = true) (e : f (s.readX s.bits rs1) (s.readX s.bits rs2) = w) :
    NextWith (regOp rd rs1 rs2 s f) fun t => WritesX s t rd w (s.spBad rd w) (s.npc s.bits 4) :=
  .naming h (.intoXI e)

theorem immOp_writes {rd rs1 : Reg} {imm : BitVec 12} {s : State} {f : BitVec s.bits → BitVec s.bits → BitVec s.bits}
    {w : BitVec s.bits} (h : s.mayName [rd, rs1] = true) (e : f (s.readX s.bits rs1) (signedImm s.bits 0 imm) = w) :
    NextWith (immOp rd rs1 imm s f) fun t => WritesX s t rd w (s.spBad rd w) (s.npc s.bits 4) :=
  .naming h (.intoXI e)

theorem shiftRegOp_writes {rd rs1 rs2 : Reg} {s : State} {f : BitVec s.bits → Nat → BitVec s.bits} {w : BitVec s.bits}
    (h : s.mayName [rd, rs1, rs2] = true) (e : f (s.readX s.bits rs1) (s.shiftAmount rs2) = w) :
    NextWith (shiftRegOp rd rs1 rs2 s f) fun t => WritesX s t rd w (s.spBad rd w) (s.npc s.bits 4) :=
  .naming h (.intoXI e)

theorem shiftImmOp_writes {rd rs1 : Reg} {shamt : BitVec 6} {s : State} {f : BitVec s.bits → Nat → BitVec s.bits}
    {w : BitVec s.bits} (h : s.mayName [rd, rs1] = true) (hl : s.shamtLegal shamt = true)
    (e : f (s.readX s.bits rs1) shamt.toNat = w) :
    NextWith (shiftImmOp rd rs1 shamt s f) fun t => WritesX s t rd w (s.spBad rd w) (s.npc s.bits 4) := by
  refine .naming h ?_
  rw [if_pos hl]
  exact .intoXI e

theorem shiftImmOp_halts {rd rs1 : Reg} {shamt : BitVec 6} {s : State} {f : BitVec s.bits → Nat → BitVec s.bits}
    (h : s.mayName [rd, rs1] = true) (hl : s.shamtLegal shamt = false) :
    shiftImmOp rd rs1 shamt s f = .next (s.haltedFor .illegalInstruction) := by
  unfold shiftImmOp
  rw [naming_of_mayName h, hl]
  rfl

theorem wordRegOp_writes {rd rs1 rs2 : Reg} {s : State} {f : BitVec 32 → BitVec 32 → BitVec 32} {w : BitVec 32}
    (hx : s.params.xlen = .rv64) (h : s.mayName [rd, rs1, rs2] = true) (e : f (s.readX 32 rs1) (s.readX 32 rs2) = w) :
    NextWith (wordRegOp rd rs1 rs2 s f) fun t =>
      WritesX s t rd (w.signExtend s.bits) (s.spBad rd (w.signExtend s.bits)) (s.npc s.bits 4) :=
  .onlyOn hx (.naming h (.intoXI (congrArg _ e)))

theorem wordImmOp_writes {rd rs1 : Reg} {s : State} {f : BitVec 32 → BitVec 32} {w : BitVec 32}
    (hx : s.params.xlen = .rv64) (h : s.mayName [rd, rs1] = true) (e : f (s.readX 32 rs1) = w) :
    NextWith (wordImmOp rd rs1 s f) fun t =>
      WritesX s t rd (w.signExtend s.bits) (s.spBad rd (w.signExtend s.bits)) (s.npc s.bits 4) :=
  .onlyOn hx (.naming h (.intoXI (congrArg _ e)))

theorem mulOp_writes {rd rs1 rs2 : Reg} {s : State} {f : BitVec s.bits → BitVec s.bits → BitVec s.bits} {w : BitVec s.bits}
    (h : s.mayName [rd, rs1, rs2] = true) (e : f (s.readX s.bits rs1) (s.readX s.bits rs2) = w) :
    NextWith (mulOp rd rs1 rs2 s f) fun t => WritesX s t rd w false (s.npc s.bits 4) :=
  .naming h (.intoX e)

theorem mulWordOp_writes {rd rs1 rs2 : Reg} {s : State} {f : BitVec 32 → BitVec 32 → BitVec 32} {w : BitVec 32}
    (hx : s.params.xlen = .rv64) (h : s.mayName [rd, rs1, rs2] = true) (e : f (s.readX 32 rs1) (s.readX 32 rs2) = w) :
    NextWith (mulWordOp rd rs1 rs2 s f) fun t => WritesX s t rd (w.signExtend s.bits) false (s.npc s.bits 4) :=
  .onlyOn hx (.naming h (.intoX (congrArg _ e)))

theorem cRegOp_writes {rd rs2 : CReg} {s : State} {f : BitVec s.bits → BitVec s.bits → BitVec s.bits} {w : BitVec s.bits}
    (e : f (s.readX s.bits rd.reg) (s.readX s.bits rs2.reg) = w) :
    NextWith (cRegOp rd rs2 s f) fun t => WritesX s t rd.reg w (s.spBad rd.reg w) (s.npc s.bits 2) :=
  .intoXC e

theorem cWordOp_writes {rd rs2 : CReg} {s : State} {f : BitVec 32 → BitVec 32 → BitVec 32} {w : BitVec s.bits}
    (hx : s.params.xlen = .rv64) (e : (f (s.readX 32 rd.reg) (s.readX 32 rs2.reg)).signExtend s.bits = w) :
    NextWith (cWordOp rd rs2 s f) fun t => WritesX s t rd.reg w (s.spBad rd.reg w) (s.npc s.bits 2) :=
  .onlyOn hx (.intoXC e)

theorem cShiftOp_writes {rd : Reg} {shamt : BitVec 6} {s : State} {f : BitVec s.bits → Nat → BitVec s.bits}
    {w : BitVec s.bits} (h : s.mayName [rd] = true) (hl : s.shamtLegal shamt = true)
    (e : f (s.readX s.bits rd) shamt.toNat = w) :
    NextWith (cShiftOp rd shamt s f) fun t => WritesX s t rd w (s.spBad rd w) (s.npc s.bits 2) := by
  refine .naming h ?_
  rw [if_pos hl]
  exact .intoXC e

theorem cShiftOp_halts {rd : Reg} {shamt : BitVec 6} {s : State} {f : BitVec s.bits → Nat → BitVec s.bits}
    (h : s.mayName [rd] = true) (hl : s.shamtLegal shamt = false) :
    cShiftOp rd shamt s f = .next (s.haltedFor .illegalInstruction) := by
  unfold cShiftOp
  rw [naming_of_mayName h, hl]
  rfl

/-- A primed field names x8 to x15, which every ABI has. -/
theorem CReg.mayName (s : State) (r : CReg) : s.mayName [r.reg] = true := by
  have : ∀ r : CReg, r.reg.toNat < 16 := by decide
  simp [State.mayName, this r]

/-! ## Branches -/

theorem branchOp_writes {rs1 rs2 : Reg} {off : BitVec 12} {s : State} {c : BitVec s.bits → BitVec s.bits → Bool} {b : Bool}
    (h : s.mayName [rs1, rs2] = true) (e : c (s.readX s.bits rs1) (s.readX s.bits rs2) = b) :
    NextWith (branchOp rs1 rs2 off s c) fun t =>
      WritesNothing s t (if b = true then s.target s.bits off else s.npc s.bits 4) := by
  subst e
  exact .naming h ⟨_, rfl, s.retire_writesNothing _⟩

theorem cBranchOp_writes {rs1 : CReg} {off : BitVec 8} {s : State} {c : BitVec s.bits → Bool} {b : Bool}
    (e : c (s.readX s.bits rs1.reg) = b) :
    NextWith (cBranchOp rs1 off s c) fun t =>
      WritesNothing s t (if b = true then s.target s.bits off else s.npc s.bits 2) := by
  subst e
  exact ⟨_, rfl, s.retire_writesNothing _⟩

/-! ## Memory requests -/

/-- A load: with the request admitted the rest goes on with the bytes, with it refused the hart is stuck. -/
theorem loading_next {n : Nat} {s : State} {k : Nat} {a : BitVec n} {go : BitVec (8 * k) → State}
    {p : BitVec (8 * k) → State → Prop} (h : ∀ v, p v (go v)) :
    (s.params.admits a.toNat k .read = true → NextWith (.next (s.loading k a go)) (p (s.mem.load a k))) ∧
    (s.params.admits a.toNat k .read = false → (.next (s.loading k a go) : Result) = .next s.nowStuck) :=
  ⟨fun ha => ⟨_, congrArg _ (State.loading_admitted ha), h _⟩, fun ha => congrArg _ (State.loading_refused ha)⟩

/-- A store that goes on to the next pc. -/
theorem storing_next {n : Nat} {s : State} {k : Nat} {a : BitVec n} {v : BitVec (8 * k)} {l : BitVec n} (hk : k ≤ 2 ^ n) :
    (s.params.admits a.toNat k .write = true →
      NextWith (.next (s.storing k a v fun t => t.proceed l)) fun t => WritesMem s t a v (s.npc n l)) ∧
    (s.params.admits a.toNat k .write = false →
      (.next (s.storing k a v fun t => t.proceed l) : Result) = .next s.nowStuck) :=
  ⟨fun ha => ⟨_, congrArg _ (State.storing_admitted ha), s.store_writesMem a v l hk⟩,
    fun ha => congrArg _ (State.storing_refused ha)⟩

section loads
variable {k : Nat} {rd rs1 rs2 : Reg} {imm : BitVec 12} {s : State}

theorem loadOp_next {ext : BitVec (8 * k) → BitVec s.bits} (h : s.mayName [rd, rs1] = true) :
    (s.params.admits (s.addrI s.bits rs1 imm).toNat k .read = true →
      NextWith (loadOp k rd rs1 imm s ext) fun t =>
        let v := ext (s.mem.load (s.addrI s.bits rs1 imm) k)
        WritesX s t rd v (s.spBad rd v) (s.npc s.bits 4)) ∧
    (s.params.admits (s.addrI s.bits rs1 imm).toNat k .read = false →
      loadOp k rd rs1 imm s ext = .next s.nowStuck) := by
  unfold loadOp
  rw [naming_of_mayName h]
  exact loading_next (p := fun v t => WritesX s t rd (ext v) (s.spBad rd (ext v)) (s.npc s.bits 4))
    fun v => s.intoXI_writesX rd (ext v)

theorem storeOp_next (h : s.mayName [rs2, rs1] = true) (hk : k ≤ 2 ^ 32) :
    (s.params.admits (s.addrI s.bits rs1 imm).toNat k .write = true →
      NextWith (storeOp k rs2 rs1 imm s) fun t =>
        WritesMem s t (s.addrI s.bits rs1 imm) (s.readX (8 * k) rs2) (s.npc s.bits 4)) ∧
    (s.params.admits (s.addrI s.bits rs1 imm).toNat k .write = false →
      storeOp k rs2 rs1 imm s = .next s.nowStuck) := by
  unfold storeOp
  rw [naming_of_mayName h]
  exact storing_next (s.bytes_le_space k hk)

theorem cLoad_next {a : BitVec s.bits} (h : s.mayName [rd] = true) :
    (s.params.admits a.toNat k .read = true →
      NextWith (cLoad k rd s a) fun t =>
        let v := (s.mem.load a k).signExtend s.bits
        WritesX s t rd v (s.spBad rd v) (s.npc s.bits 2)) ∧
    (s.params.admits a.toNat k .read = false → cLoad k rd s a = .next s.nowStuck) := by
  unfold cLoad
  rw [naming_of_mayName h]
  exact loading_next
    (p := fun v t => WritesX s t rd (v.signExtend s.bits) (s.spBad rd (v.signExtend s.bits)) (s.npc s.bits 2))
    fun v => s.intoXC_writesX rd _

theorem cStore_next {a : BitVec s.bits} (h : s.mayName [rs2] = true) (hk : k ≤ 2 ^ 32) :
    (s.params.admits a.toNat k .write = true →
      NextWith (cStore k rs2 s a) fun t => WritesMem s t a (s.readX (8 * k) rs2) (s.npc s.bits 2)) ∧
    (s.params.admits a.toNat k .write = false → cStore k rs2 s a = .next s.nowStuck) := by
  unfold cStore
  rw [naming_of_mayName h]
  exact storing_next (s.bytes_le_space k hk)

end loads

/-! ## Atomics -/

theorem reserve_mem (s : State) (a b : Nat) : b ∈ (s.reserve a).resv ↔ b = a ∨ b ∈ s.resv := by
  show b ∈ resvInsert a s.resv ↔ _
  induction s.resv with
  | nil => simp [resvInsert]
  | cons c cs ih =>
    unfold resvInsert
    split
    · simp
    · split
      · rename_i h; subst h; simp
      · simp only [List.mem_cons, ih]; grind

theorem release_mem (s : State) (a b : Nat) : b ∈ (s.release a).resv ↔ b ≠ a ∧ b ∈ s.resv := by
  show b ∈ s.resv.filter (fun c => c != a) ↔ _
  simp [and_comm]

theorem reserved_iff (s : State) (a : Nat) : s.reserved a = true ↔ a ∈ s.resv := by
  simp [State.reserved]

/-! ## Floating point -/

section float
variable {fmt : Fmt} {rd rs1 rs2 rs3 : Reg} {rm : BitVec 3} {imm : BitVec 12} {s : State}

theorem NextWith.intoFpu {call : FpuCall} {v w : BitVec fmt.bits} (e : v = w) :
    NextWith (.next (s.intoFpu fmt rd call v)) fun t =>
      WritesF s t fmt rd w (Config.fpuFlags call) (s.npc s.bits 4) := by
  subst e; exact ⟨_, rfl, s.intoFpu_writesF fmt rd call v⟩

theorem NextWith.intoF {n : Nat} {l : BitVec n} {v w : BitVec fmt.bits} (e : v = w) :
    NextWith (.next (s.intoF fmt l rd v)) fun t => WritesF s t fmt rd w 0 (s.npc n l) := by
  subst e; exact ⟨_, rfl, s.intoF_writesF fmt l rd v⟩

/-- With a rounding mode the rest goes on under it; with none the instruction is refused. -/
theorem rounding_next {go : Rm → State} {p : Rm → State → Prop} (h : ∀ m, p m (go m)) :
    (∀ m, s.rmEff rm = some m → NextWith (rounding rm s go) (p m)) ∧
    (s.rmEff rm = none → rounding rm s go = .refused .reservedRoundingMode) :=
  ⟨fun m hm => ⟨_, rounding_some hm, h m⟩, rounding_none⟩

/-- The flags of a comparison or a conversion to an integer are accrued, then the general register is written. -/
theorem accrue_intoX_writesX {call : FpuCall} {v : BitVec s.bits} :
    WritesX { s with hart := { s.hart with fflags := s.hart.fflags ||| Config.fpuFlags call } }
      ((s.accrue call).intoX rd v) rd v false (s.npc s.bits 4) :=
  (s.accrue call).intoX_writesX rd v

end float

/-! ## CSR instructions -/

/-- A CSR instruction on a CSR of the set: the CSR takes the new value, the general register the old one, and a draw that the
read takes is counted. -/
theorem csrAccess_writes {rd : Reg} {number : BitVec 12} {s : State} {c : Csr} {u : BitVec s.bits → BitVec s.bits}
    {w : BitVec s.bits} (hc : Csr.ofNumber number = some c) (hx : c.isHighHalf = true → s.params.xlen = .rv32)
    (e : u (s.csrValue s.bits c) = w) :
    NextWith (csrAccess rd number s u) fun t =>
      WritesX (({ s with draws := s.draws + (if s.csrTakesDraw c then 1 else 0) } : State).csrWrite c w) t rd
        (s.csrValue s.bits c) (s.spBad rd (s.csrValue s.bits c)) (s.npc s.bits 4) := by
  subst e
  have hh : (c.isHighHalf && s.params.xlen == .rv64) = false := by
    cases hi : c.isHighHalf
    · rfl
    · rw [hx hi]; rfl
  have hr : ∀ (a : State) (v w : BitVec s.bits), (a.writeX rd v).csrWrite c w = (a.csrWrite c w).writeX rd v := by
    intro a v w
    unfold State.writeX
    split
    · rfl
    · cases c <;> rfl
  have hd : (if s.csrTakesDraw c then s.takeDraw else s) =
      { s with draws := s.draws + (if s.csrTakesDraw c then 1 else 0) } := by
    split <;> rfl
  generalize hs : ({ s with draws := s.draws + (if s.csrTakesDraw c then 1 else 0) } : State) = drawn at *
  refine ⟨(drawn.csrWrite c (u (s.csrValue s.bits c))).intoXThen true rd (s.csrValue s.bits c) (s.npc s.bits 4), ?_, ?_⟩
  · unfold csrAccess
    rw [hc]
    simp only [hh, Bool.false_eq_true, if_false, hd, hr]
    rfl
  · have h := (drawn.csrWrite c (u (s.csrValue s.bits c))).intoXThen_writesX true rd (s.csrValue s.bits c) (s.npc s.bits 4)
    subst hs
    rw [Bool.true_and] at h
    exact h

/-! ## Packed SIMD -/

/-- A packed instruction, by its lanes and by which lanes clamp. -/
theorem packed_writesLanes {w : Nat} (hw : w = 8 ∨ w = 16) {names : List Reg} {rd : Reg} {s : State}
    {f : Nat → BitVec w × Bool} {value : Nat → BitVec w} {clamps : Nat → Prop} (h : s.mayName names = true)
    (e : ∀ i, i < s.bits / w → (f i).1 = value i) (c : ∀ i, i < s.bits / w → ((f i).2 = true ↔ clamps i)) :
    NextWith (packed w names rd s f) fun t => WritesLanes w s t rd value clamps := by
  obtain ⟨t, v, ht, hl, hx⟩ := packed_writesX w names rd s f h
  refine ⟨t, ht, v, anyLane (fun i => (f i).2) (s.bits / w), ?_, ?_, ?_⟩
  · intro i hi
    rw [hl (Nat.le_of_eq (s.lanes_fill w hw)) i hi, e i hi]
  · rw [anyLane_iff]
    exact ⟨fun ⟨i, hi, hp⟩ => ⟨i, hi, (c i hi).mp hp⟩, fun ⟨i, hi, hp⟩ => ⟨i, hi, (c i hi).mpr hp⟩⟩
  · have : s.raiseOv (anyLane (fun i => (f i).2) (s.bits / w)) =
        { s with
          hart :=
            { s.hart with
              ucode := if anyLane (fun i => (f i).2) (s.bits / w) then s.hart.ucode ||| 1 else s.hart.ucode } } := by
      unfold State.raiseOv
      split <;> simp_all [State.setHart]
    rw [this] at hx
    exact hx

end Sys2Proof.Machine
end

