-- ==== Sys2Proof/Laws/Frames.lean ====
section
/-! SUPPORT. What every operation keeps: one relation between the state before and the state after, and one lemma per
operation and per shape of instruction. -/

namespace Sys2Proof.Machine

/-- The invariant but for the table-execute flag, which is set inside an exec.it. -/
structure State.Clean (s : State) : Prop where
  inv : (s.setHart { s.hart with te := false }).Inv

/-- What an instruction may change beside registers, memory and the pc: the reservation set, the CSRs, the accrued flags, OV. -/
structure May where
  resv : Bool := false
  csr : Bool := false
  flags : Bool := false
  ov : Bool := false

/-- What t keeps of s where `may` lets things change. -/
structure Keeps (may : May) (s t : State) : Prop where
  params : t.params = s.params
  parked : t.parked = s.parked
  schedule : t.schedule = s.schedule
  refusedMark : t.refusedMark = s.refusedMark
  id : t.hart.id = s.hart.id
  te : t.hart.te = s.hart.te
  upper : ∀ r : Reg, (t.hart.f[r.toNat]'r.isLt).extractLsb' 64 64 = (s.hart.f[r.toNat]'r.isLt).extractLsb' 64 64
  pc : t.hart.pc = s.hart.pc ∨ t.hart.pc ≠ 0
  resvSame : may.resv = false → t.resv = s.resv
  fflags : may.csr = false → t.hart.fflags &&& s.hart.fflags = s.hart.fflags
  fflagsSame : may.csr = false → may.flags = false → t.hart.fflags = s.hart.fflags
  ucode : may.csr = false → t.hart.ucode = s.hart.ucode ∨ t.hart.ucode = s.hart.ucode ||| 1
  ucodeSame : may.csr = false → may.ov = false → t.hart.ucode = s.hart.ucode
  csrSame : may.csr = false → t.hart.frm = s.hart.frm ∧ t.hart.fcsrOpen = s.hart.fcsrOpen ∧ t.hart.uitb = s.hart.uitb ∧
    t.hart.mvendorid = s.hart.mvendorid ∧ t.hart.marchid = s.hart.marchid ∧ t.hart.mimpid = s.hart.mimpid ∧
    t.hart.mhartid = s.hart.mhartid
  clean : s.Clean → t.Clean

/-- A property of the next state, where there is one. -/
def OnNext (p : State → Prop) : Result → Prop
  | .next t => p t
  | .fault _ => True
  | .refused _ => True

theorem OnNext.next {p : State → Prop} {t : State} (h : p t) : OnNext p (.next t) := h

theorem OnNext.naming {p : State → Prop} {rs : List Reg} {s : State} {go : Result} (h : OnNext p go) :
    OnNext p (Machine.naming rs s go) := by
  unfold Machine.naming; split
  · trivial
  · exact h

section
variable {may : May} {s t : State}

theorem Keeps.rfl : Keeps may s s where
  params := Eq.refl _
  parked := Eq.refl _
  schedule := Eq.refl _
  refusedMark := Eq.refl _
  id := Eq.refl _
  te := Eq.refl _
  upper _ := Eq.refl _
  pc := .inl (Eq.refl _)
  resvSame _ := Eq.refl _
  fflags _ := BitVec.and_self
  fflagsSame _ _ := Eq.refl _
  ucode _ := .inl (Eq.refl _)
  ucodeSame _ _ := Eq.refl _
  csrSame _ := by simp
  clean h := h

theorem Keeps.bits (h : Keeps may s t) : t.bits = s.bits := congrArg (fun p => p.xlen.bits) h.params

theorem Keeps.ite {p : Prop} [Decidable p] {a b : State} (ha : Keeps may s a) (hb : Keeps may s b) :
    Keeps may s (if p then a else b) := by
  split
  · exact ha
  · exact hb

/-! ## Operations -/

theorem Keeps.halt (h : Keeps may s t) (reason : HaltReason) : Keeps may s (t.halt reason) :=
  { h with
    clean := fun hs => by
      obtain ⟨⟨_, _, _, _, ⟨_, _, _, _, _, _, _, _, _, _, _, _, _, _⟩, _⟩⟩ := h.clean hs
      constructor; constructor <;> try assumption
      constructor <;> assumption }

theorem Keeps.stuck (h : Keeps may s t) : Keeps may s t.stuck :=
  { h with
    clean := fun hs => by
      obtain ⟨⟨_, _, _, _, ⟨_, _, _, _, _, _, _, _, _, _, _, _, _, _⟩, _⟩⟩ := h.clean hs
      constructor; constructor <;> try assumption
      constructor <;> assumption }

theorem Keeps.takeDraw (h : Keeps may s t) : Keeps may s t.takeDraw :=
  { h with
    clean := fun hs => by
      obtain ⟨⟨_, _, _, _, _, _⟩⟩ := h.clean hs
      constructor; constructor <;> assumption }

theorem Keeps.exit (h : Keeps may s t) : Keeps may s { t with exited := true } :=
  { h with
    clean := fun hs => by
      obtain ⟨⟨_, _, _, _, _, _⟩⟩ := h.clean hs
      constructor; constructor <;> assumption }

theorem fitsIn_setWidth {n m : Nat} (v : BitVec n) (h : n ≤ m) : fitsIn m (v.setWidth 64) := by
  unfold fitsIn
  rw [BitVec.toNat_setWidth]
  exact Nat.lt_of_le_of_lt (Nat.mod_le _ _) (Nat.lt_of_lt_of_le v.isLt (Nat.pow_le_pow_right (by decide) h))

theorem Keeps.writeX (h : Keeps may s t) {n : Nat} (rd : Reg) (v : BitVec n) (hn : n ≤ s.bits) :
    Keeps may s (t.writeX rd v) := by
  unfold State.writeX
  split
  · exact h
  · rename_i hr
    exact
      { h with
        clean := fun hs => by
          obtain ⟨⟨_, _, _, _, ⟨_, _, _, h0, hx, _, _, _, _, _, _, _, _, _⟩, _⟩⟩ := h.clean hs
          constructor; constructor <;> try assumption
          have hz : rd.toNat ≠ 0 := fun e => hr (BitVec.eq_of_toNat_eq e)
          constructor <;> try assumption
          · show (t.hart.x.set rd.toNat (v.setWidth 64) rd.isLt)[0] = 0
            rw [Vector.getElem_set_ne _ _ hz]; exact h0
          · intro q
            show fitsIn _ ((t.hart.x.set rd.toNat (v.setWidth 64) rd.isLt)[q.toNat]'q.isLt)
            rw [Vector.getElem_set]
            split
            · exact fitsIn_setWidth v (h.bits ▸ hn)
            · exact hx q }

theorem Keeps.setPc (h : Keeps may s t) {n : Nat} (a : BitVec n) (hn : n ≤ s.bits) (h0 : a ≠ 0)
    (he : s.Clean → a.getLsbD 0 = false) : Keeps may s (t.setPc a) :=
  { h with
    pc := .inr fun e => h0 <| BitVec.eq_of_toNat_eq <| by
      have e' := congrArg BitVec.toNat e
      have hp : a.toNat < 2 ^ 64 :=
        Nat.lt_of_lt_of_le a.isLt (Nat.pow_le_pow_right (by decide) (Nat.le_trans hn s.bits_le))
      have : (t.setPc a).hart.pc = a.setWidth 64 := Eq.refl _
      rw [this, BitVec.toNat_setWidth, Nat.mod_eq_of_lt hp] at e'
      simpa using e'
    clean := fun hs => by
      obtain ⟨⟨_, _, _, _, ⟨_, _, _, _, _, _, _, _, _, _, _, _, _, _⟩, _⟩⟩ := h.clean hs
      constructor; constructor <;> try assumption
      constructor <;> try assumption
      · show (a.setWidth 64).getLsbD 0 = false
        simp [he hs]
      · exact fitsIn_setWidth a (h.bits ▸ hn) }

theorem Keeps.retire (h : Keeps may s t) {n : Nat} {b : Bool} {a : BitVec n} (hn : n ≤ s.bits)
    (he : s.Clean → a.getLsbD 0 = false) : Keeps may s (t.retire b a) := by
  unfold State.retire State.commit
  split
  · exact h.halt _
  · split
    · exact h.halt _
    · exact h.setPc a hn ‹_› he

theorem Keeps.setFLow (h : Keeps may s t) (rd : Reg) (v : Word) : Keeps may s (t.setFLow rd v) :=
  { h with
    upper := fun q => by
      show ((t.hart.f.set rd.toNat ((t.hart.f[rd.toNat]'rd.isLt).extractLsb' 64 64 ++ v) rd.isLt)[q.toNat]'q.isLt).extractLsb'
        64 64 = _
      rw [← h.upper q, Vector.getElem_set]
      split
      · rename_i e
        cases BitVec.eq_of_toNat_eq e
        ext i hi
        rw [BitVec.getElem_extractLsb', BitVec.getElem_extractLsb']
        exact (BitVec.getLsbD_append (x := (t.hart.f[rd.toNat]'rd.isLt).extractLsb' 64 64) (y := v)).trans (by simp [hi])
      · exact Eq.refl _
    clean := fun hs => by
      obtain ⟨⟨_, _, _, _, ⟨_, _, _, _, _, _, _, _, _, _, _, _, _, _⟩, _⟩⟩ := h.clean hs
      constructor; constructor <;> try assumption
      constructor <;> assumption }

theorem Keeps.writeF (h : Keeps may s t) (fmt : Fmt) (rd : Reg) (v : BitVec fmt.bits) : Keeps may s (t.writeF fmt rd v) := by
  unfold State.writeF
  split
  · exact h.setFLow _ _
  · exact (h.setFLow _ _).takeDraw

theorem Keeps.accrue (h : Keeps may s t) (hf : may.flags = true) (call : FpuCall) : Keeps may s (t.accrue call) :=
  { h with
    fflags := fun hc => by
      show (t.hart.fflags ||| Config.fpuFlags call) &&& s.hart.fflags = s.hart.fflags
      have e := h.fflags hc
      ext i hi
      have e := congrArg (fun v => v[i]) e
      simp only [BitVec.getElem_or, BitVec.getElem_and] at e ⊢
      revert e
      cases s.hart.fflags[i] <;> simp +contextual
    fflagsSame := fun _ e => by simp [hf] at e
    clean := fun hs => by
      obtain ⟨⟨_, _, _, _, ⟨_, _, _, _, _, _, _, _, _, _, _, _, _, _⟩, _⟩⟩ := h.clean hs
      constructor; constructor <;> try assumption
      constructor <;> assumption }

theorem Keeps.raiseOv (h : Keeps may s t) (ho : may.ov = true) (b : Bool) : Keeps may s (t.raiseOv b) := by
  unfold State.raiseOv
  split
  · exact
      { h with
        ucode := fun hc => by
          right
          show t.hart.ucode ||| 1 = _
          rcases h.ucode hc with e | e
          · rw [e]
          · rw [e, BitVec.or_assoc, BitVec.or_self]
        ucodeSame := fun _ e => by simp [ho] at e
        clean := fun hs => by
          obtain ⟨⟨_, _, _, _, ⟨_, _, _, _, _, _, _, _, _, hu, _, _, _, _⟩, _⟩⟩ := h.clean hs
          constructor; constructor <;> try assumption
          constructor <;> try assumption
          show (t.hart.ucode ||| 1).toNat < 2 ^ t.bits
          rw [BitVec.toNat_or]
          exact Nat.or_lt_two_pow hu (Nat.lt_of_lt_of_le (by decide : (1 : Nat) < 2 ^ 32)
            (Nat.pow_le_pow_right (by decide) t.le_bits)) }
  · exact h

/-- A change of memory that keeps the canonical form and the address space. -/
theorem Keeps.memory (h : Keeps may s t) {m : Memory} (hw : t.mem.wf = true → m.wf = true)
    (hi : (∀ d ∈ t.mem, d.1 < 2 ^ s.bits) → ∀ d ∈ m, d.1 < 2 ^ s.bits) : Keeps may s { t with mem := m } :=
  { h with
    clean := fun hs => by
      obtain ⟨⟨h1, h2, _, _, _, _⟩⟩ := h.clean hs
      constructor; constructor <;> try assumption
      · exact hw h1
      · have : t.bits = s.bits := h.bits
        show ∀ d ∈ m, d.1 < 2 ^ t.bits
        rw [this]
        exact hi (by rw [← this]; exact h2) }

theorem Keeps.store (h : Keeps may s t) {n k : Nat} (a : BitVec n) (v : BitVec (8 * k)) (hn : n ≤ s.bits) :
    Keeps may s { t with mem := t.mem.store a k v } :=
  h.memory (Memory.wf_store k t.mem a v) fun hi d hd => by
    rcases Memory.mem_store k t.mem a v d hd with hj | hd
    · exact Nat.lt_of_lt_of_le hj (Nat.pow_le_pow_right (by decide) hn)
    · exact hi d hd

theorem Keeps.loading (h : Keeps may s t) {n k : Nat} {a : BitVec n} {go : BitVec (8 * k) → State}
    (hgo : ∀ v, Keeps may s (go v)) : Keeps may s (t.loading k a go) := by
  unfold State.loading
  split
  · exact hgo _
  · exact h.stuck

theorem Keeps.storing (h : Keeps may s t) {n k : Nat} {a : BitVec n} {v : BitVec (8 * k)} {go : State → State}
    (hn : n ≤ s.bits) (hgo : ∀ u, Keeps may s u → Keeps may s (go u)) : Keeps may s (t.storing k a v go) := by
  unfold State.storing
  split
  · exact hgo _ (h.store a v hn)
  · exact h.stuck

theorem resvInsert_inside {l : List Nat} {a b bound : Nat} (ha : a < bound) (hl : ∀ x ∈ l, x < bound)
    (h : b ∈ resvInsert a l) : b < bound := by
  induction l with
  | nil => simp [resvInsert] at h; exact h ▸ ha
  | cons d ds ih =>
    unfold resvInsert at h
    split at h
    · rcases List.mem_cons.mp h with h | h
      · exact h ▸ ha
      · exact hl b h
    · split at h
      · exact hl b h
      · rcases List.mem_cons.mp h with h | h
        · exact h ▸ hl d (List.mem_cons_self ..)
        · exact ih (fun x hx => hl x (List.mem_cons_of_mem _ hx)) h

theorem Keeps.reserve (h : Keeps may s t) (hr : may.resv = true) (a : BitVec s.bits) : Keeps may s (t.reserve a.toNat) :=
  { h with
    resvSame := fun e => by simp [hr] at e
    clean := fun hs => by
      obtain ⟨⟨_, _, h3, h4, _, _⟩⟩ := h.clean hs
      constructor; constructor <;> try assumption
      · exact resvWf_insert _ _ h3
      · intro b hb
        have ha : a.toNat < 2 ^ t.bits := by rw [h.bits]; exact a.isLt
        exact resvInsert_inside ha h4 hb }

theorem Keeps.release (h : Keeps may s t) (hr : may.resv = true) (a : Nat) : Keeps may s (t.release a) :=
  { h with
    resvSame := fun e => by simp [hr] at e
    clean := fun hs => by
      obtain ⟨⟨_, _, h3, h4, _, _⟩⟩ := h.clean hs
      constructor; constructor <;> try assumption
      · exact resvWf_release _ _ h3
      · intro b hb; exact h4 b (List.mem_filter.mp hb).1 }

theorem Keeps.csrWrite (h : Keeps may s t) (hc : may.csr = true) (x : Csr) (v : BitVec s.bits) : Keeps may s (t.csrWrite x v) := by
  have hv : fitsIn t.bits (v.setWidth 64) := fitsIn_setWidth v (Nat.le_of_eq h.bits.symm)
  cases x <;> exact
    { h with
      fflags := fun e => by simp [hc] at e
      fflagsSame := fun e => by simp [hc] at e
      ucode := fun e => by simp [hc] at e
      ucodeSame := fun e => by simp [hc] at e
      csrSame := fun e => by simp [hc] at e
      clean := fun hs => by
        obtain ⟨⟨_, _, _, _, ⟨_, _, _, _, _, _, _, _, _, _, _, _, _, _⟩, _⟩⟩ := h.clean hs
        constructor; constructor <;> try assumption
        constructor <;> assumption }

/-! ## Even addresses -/

theorem even_iff {n : Nat} (a : BitVec n) : a.getLsbD 0 = false ↔ a.toNat % 2 = 0 := by
  simp [BitVec.getLsbD, Nat.testBit_zero]

theorem mod_two_pow_even {n x : Nat} (h : x % 2 = 0) : x % 2 ^ n % 2 = 0 := by
  cases n with
  | zero => simp [Nat.mod_one]
  | succ k => rw [Nat.mod_mod_of_dvd _ ⟨2 ^ k, by rw [Nat.pow_succ, Nat.mul_comm]⟩]; exact h

theorem State.Clean.pcVal (h : s.Clean) (n : Nat) : (s.pcVal n).getLsbD 0 = false := by
  have := (even_iff s.hart.pc).mp h.inv.hart.pcEven
  rw [even_iff, State.pcVal, BitVec.toNat_setWidth]
  exact mod_two_pow_even this

theorem add_even {n : Nat} {a b : BitVec n} (ha : a.getLsbD 0 = false) (hb : b.getLsbD 0 = false) :
    (a + b).getLsbD 0 = false := by
  rw [even_iff] at *
  rw [BitVec.toNat_add]
  exact mod_two_pow_even (by omega)

theorem sub_even {n : Nat} {a b : BitVec n} (ha : a.getLsbD 0 = false) (hb : b.getLsbD 0 = false) :
    (a - b).getLsbD 0 = false := by
  rw [even_iff] at *
  have hlt := b.isLt
  rw [BitVec.toNat_sub]
  rcases Nat.eq_zero_or_pos n with h | h
  · subst h; simp [Nat.mod_one]
  · refine mod_two_pow_even ?_
    have : 2 ^ n % 2 = 0 := by
      obtain ⟨k, rfl⟩ : ∃ k, n = k + 1 := ⟨n - 1, by omega⟩
      rw [Nat.pow_succ]; omega
    omega

theorem ofNat_even {n k : Nat} (h : k % 2 = 0) : (BitVec.ofNat n k).getLsbD 0 = false := by
  rw [even_iff, BitVec.toNat_ofNat]
  exact mod_two_pow_even h

theorem State.Clean.npc (h : s.Clean) {n : Nat} {l : BitVec n} (hl : l.getLsbD 0 = false) :
    (s.npc n l).getLsbD 0 = false := by
  unfold State.npc
  refine sub_even (add_even (h.pcVal n) hl) ?_
  split <;> exact ofNat_even (by decide)

theorem State.Clean.target (h : s.Clean) {n w : Nat} (off : BitVec w) : (s.target n off).getLsbD 0 = false := by
  unfold State.target signedImm
  refine add_even (h.pcVal n) ?_
  have : (off ++ (0#1)).getLsbD 0 = false := by rw [BitVec.getLsbD_append]; rfl
  simp only [BitVec.getLsbD_signExtend, Nat.zero_lt_succ, if_true, this, Bool.and_false]

theorem clearBit0_even {n : Nat} (a : BitVec n) : (clearBit0 a).getLsbD 0 = false := by
  unfold clearBit0
  rw [BitVec.getLsbD_and, BitVec.getLsbD_not]
  rcases Nat.eq_zero_or_pos n with h | h
  · subst h; simp
  · simp [h]

/-! ## Ends of instructions -/

section ends
variable {n : Nat}

theorem Keeps.intoXThen (h : Keeps may s t) {b : Bool} {rd : Reg} {v a : BitVec n} (hn : n ≤ s.bits)
    (he : s.Clean → a.getLsbD 0 = false) : Keeps may s (t.intoXThen b rd v a) :=
  (h.writeX rd v hn).retire hn he

theorem Keeps.npcEven (h : Keeps may s t) {l : BitVec n} (hl : l.getLsbD 0 = false) (hs : s.Clean) :
    (t.npc n l).getLsbD 0 = false :=
  (h.clean hs).npc hl

theorem Keeps.intoXI (h : Keeps may s t) {rd : Reg} {v : BitVec n} (hn : n ≤ s.bits) : Keeps may s (t.intoXI rd v) :=
  h.intoXThen hn (h.npcEven (ofNat_even (by decide)))

theorem Keeps.intoXC (h : Keeps may s t) {rd : Reg} {v : BitVec n} (hn : n ≤ s.bits) : Keeps may s (t.intoXC rd v) :=
  h.intoXThen hn (h.npcEven (ofNat_even (by decide)))

theorem Keeps.intoX (h : Keeps may s t) {rd : Reg} {v : BitVec n} (hn : n ≤ s.bits) : Keeps may s (t.intoX rd v) :=
  h.intoXThen hn (h.npcEven (ofNat_even (by decide)))

theorem Keeps.proceed4 (h : Keeps may s t) (hn : n ≤ s.bits) : Keeps may s (t.proceed (4 : BitVec n)) :=
  h.retire hn (h.npcEven (ofNat_even (by decide)))

theorem Keeps.proceed2 (h : Keeps may s t) (hn : n ≤ s.bits) : Keeps may s (t.proceed (2 : BitVec n)) :=
  h.retire hn (h.npcEven (ofNat_even (by decide)))

theorem Keeps.intoF4 (h : Keeps may s t) {fmt : Fmt} {rd : Reg} {v : BitVec fmt.bits} (hn : n ≤ s.bits) :
    Keeps may s (t.intoF fmt (4 : BitVec n) rd v) :=
  (h.writeF fmt rd v).proceed4 hn

theorem Keeps.intoF2 (h : Keeps may s t) {fmt : Fmt} {rd : Reg} {v : BitVec fmt.bits} (hn : n ≤ s.bits) :
    Keeps may s (t.intoF fmt (2 : BitVec n) rd v) :=
  (h.writeF fmt rd v).proceed2 hn

theorem Keeps.intoFpu (h : Keeps may s t) (hf : may.flags = true) {fmt : Fmt} {rd : Reg} {call : FpuCall} {v : BitVec fmt.bits} :
    Keeps may s (t.intoFpu fmt rd call v) :=
  (h.accrue hf call).intoF4 (Nat.le_of_eq h.bits)

end ends

theorem OnNext.onlyOn {x : Xlen} {go : Result} (h : OnNext (Keeps may s) go) :
    OnNext (Keeps may s) (Machine.onlyOn x s go) := by
  unfold Machine.onlyOn; split
  · exact h
  · exact Keeps.rfl.halt _

theorem OnNext.rounding {rm : BitVec 3} {go : Rm → State} (h : ∀ m, Keeps may s (go m)) :
    OnNext (Keeps may s) (Machine.rounding rm s go) := by
  unfold Machine.rounding; split
  · exact h _
  · trivial

theorem OnNext.linking {n : Nat} {rd : Reg} {go : BitVec n → State} (h : ∀ l, Keeps may s (go l)) :
    OnNext (Keeps may s) (s.linking n rd go) := by
  unfold State.linking
  split
  · split
    · exact h _
    · trivial
  · exact h _

/-! ## Shapes of instructions -/

section shapes
variable {rd rs1 rs2 rs3 : Reg} {rm : BitVec 3} {fmt : Fmt}

theorem regOp_keeps {f : BitVec s.bits → BitVec s.bits → BitVec s.bits} : OnNext (Keeps may s) (regOp rd rs1 rs2 s f) :=
  .naming (Keeps.rfl.intoXI (Nat.le_refl _))

theorem immOp_keeps {imm : BitVec 12} {f : BitVec s.bits → BitVec s.bits → BitVec s.bits} :
    OnNext (Keeps may s) (immOp rd rs1 imm s f) :=
  .naming (Keeps.rfl.intoXI (Nat.le_refl _))

theorem shiftRegOp_keeps {f : BitVec s.bits → Nat → BitVec s.bits} : OnNext (Keeps may s) (shiftRegOp rd rs1 rs2 s f) :=
  .naming (Keeps.rfl.intoXI (Nat.le_refl _))

theorem shiftImmOp_keeps {shamt : BitVec 6} {f : BitVec s.bits → Nat → BitVec s.bits} :
    OnNext (Keeps may s) (shiftImmOp rd rs1 shamt s f) := by
  refine .naming ?_
  split
  · exact Keeps.rfl.intoXI (Nat.le_refl _)
  · exact Keeps.rfl.halt _

theorem wordRegOp_keeps {f : BitVec 32 → BitVec 32 → BitVec 32} : OnNext (Keeps may s) (wordRegOp rd rs1 rs2 s f) :=
  .onlyOn (.naming (Keeps.rfl.intoXI (Nat.le_refl _)))

theorem wordImmOp_keeps {f : BitVec 32 → BitVec 32} : OnNext (Keeps may s) (wordImmOp rd rs1 s f) :=
  .onlyOn (.naming (Keeps.rfl.intoXI (Nat.le_refl _)))

theorem branchOp_keeps {off : BitVec 12} {f : BitVec s.bits → BitVec s.bits → Bool} :
    OnNext (Keeps may s) (branchOp rs1 rs2 off s f) := by
  refine .naming (Keeps.rfl.retire (Nat.le_refl _) fun hs => ?_)
  split
  · exact hs.target off
  · exact hs.npc (ofNat_even (by decide))

theorem loadOp_keeps {k : Nat} {imm : BitVec 12} {ext : BitVec (8 * k) → BitVec s.bits} :
    OnNext (Keeps may s) (loadOp k rd rs1 imm s ext) :=
  .naming (Keeps.rfl.loading fun _ => Keeps.rfl.intoXI (Nat.le_refl _))

theorem storeOp_keeps {k : Nat} {imm : BitVec 12} : OnNext (Keeps may s) (storeOp k rs2 rs1 imm s) :=
  .naming (Keeps.rfl.storing (Nat.le_refl _) fun _ h => h.proceed4 (Nat.le_refl _))

theorem mulOp_keeps {f : BitVec s.bits → BitVec s.bits → BitVec s.bits} : OnNext (Keeps may s) (mulOp rd rs1 rs2 s f) :=
  .naming (Keeps.rfl.intoX (Nat.le_refl _))

theorem mulWordOp_keeps {f : BitVec 32 → BitVec 32 → BitVec 32} : OnNext (Keeps may s) (mulWordOp rd rs1 rs2 s f) :=
  .onlyOn (.naming (Keeps.rfl.intoX (Nat.le_refl _)))

theorem cRegOp_keeps {a b : CReg} {f : BitVec s.bits → BitVec s.bits → BitVec s.bits} :
    OnNext (Keeps may s) (cRegOp a b s f) :=
  Keeps.rfl.intoXC (Nat.le_refl _)

theorem cWordOp_keeps {a b : CReg} {f : BitVec 32 → BitVec 32 → BitVec 32} : OnNext (Keeps may s) (cWordOp a b s f) :=
  .onlyOn (.next (Keeps.rfl.intoXC (Nat.le_refl _)))

theorem cShiftOp_keeps {shamt : BitVec 6} {f : BitVec s.bits → Nat → BitVec s.bits} :
    OnNext (Keeps may s) (cShiftOp rd shamt s f) := by
  refine .naming ?_
  split
  · exact Keeps.rfl.intoXC (Nat.le_refl _)
  · exact Keeps.rfl.halt _

theorem cBranchOp_keeps {a : CReg} {off : BitVec 8} {f : BitVec s.bits → Bool} :
    OnNext (Keeps may s) (cBranchOp a off s f) := by
  refine .next (Keeps.rfl.retire (Nat.le_refl _) fun hs => ?_)
  split
  · exact hs.target off
  · exact hs.npc (ofNat_even (by decide))

theorem cLoad_keeps {k : Nat} {a : BitVec s.bits} : OnNext (Keeps may s) (cLoad k rd s a) :=
  .naming (Keeps.rfl.loading fun _ => Keeps.rfl.intoXC (Nat.le_refl _))

theorem cStore_keeps {k : Nat} {a : BitVec s.bits} : OnNext (Keeps may s) (cStore k rs2 s a) :=
  .naming (Keeps.rfl.storing (Nat.le_refl _) fun _ h => h.proceed2 (Nat.le_refl _))

theorem cFloatLoad_keeps {a : BitVec s.bits} : OnNext (Keeps may s) (cFloatLoad fmt rd s a) :=
  .next (Keeps.rfl.loading fun _ => Keeps.rfl.intoF2 (Nat.le_refl _))

theorem cFloatStore_keeps {a : BitVec s.bits} : OnNext (Keeps may s) (cFloatStore fmt rs2 s a) :=
  .next (Keeps.rfl.storing (Nat.le_refl _) fun _ h => h.proceed2 (Nat.le_refl _))

theorem lrOp_keeps (hr : may.resv = true) {k : Nat} : OnNext (Keeps may s) (lrOp k rd rs1 s) :=
  .naming (Keeps.rfl.loading fun _ => (Keeps.rfl.reserve hr _).intoX (Nat.le_refl _))

theorem scOp_keeps (hr : may.resv = true) {k : Nat} : OnNext (Keeps may s) (scOp k rd rs2 rs1 s) := by
  refine .naming ?_
  show Keeps may s (ite _ _ _)
  split
  · exact Keeps.rfl.storing (Nat.le_refl _) fun _ h => (h.release hr _).intoX (Nat.le_refl _)
  · exact Keeps.rfl.intoX (Nat.le_refl _)

theorem amoOp_keeps {k : Nat} {f : BitVec (8 * k) → BitVec (8 * k) → BitVec (8 * k)} :
    OnNext (Keeps may s) (amoOp k rd rs2 rs1 s f) :=
  .naming (Keeps.rfl.loading fun _ => Keeps.rfl.storing (Nat.le_refl _) fun _ h => h.intoX (Nat.le_refl _))

theorem floatLoad_keeps {imm : BitVec 12} : OnNext (Keeps may s) (floatLoad fmt rd rs1 imm s) :=
  .naming (Keeps.rfl.loading fun _ => Keeps.rfl.intoF4 (Nat.le_refl _))

theorem floatStore_keeps {imm : BitVec 12} : OnNext (Keeps may s) (floatStore fmt rs2 rs1 imm s) :=
  .naming (Keeps.rfl.storing (Nat.le_refl _) fun _ h => h.proceed4 (Nat.le_refl _))

theorem floatFma_keeps (hf : may.flags = true) {op : FmaOp} : OnNext (Keeps may s) (floatFma fmt op rd rs1 rs2 rs3 rm s) :=
  .rounding fun _ => Keeps.rfl.intoFpu hf

theorem floatArith_keeps (hf : may.flags = true) {op : ArithOp} : OnNext (Keeps may s) (floatArith fmt op rd rs1 rs2 rm s) :=
  .rounding fun _ => Keeps.rfl.intoFpu hf

theorem floatSqrt_keeps (hf : may.flags = true) : OnNext (Keeps may s) (floatSqrt fmt rd rs1 rm s) :=
  .rounding fun _ => Keeps.rfl.intoFpu hf

theorem floatSign_keeps {f : Bool → Bool → Bool} : OnNext (Keeps may s) (floatSign fmt rd rs1 rs2 s f) :=
  .next (Keeps.rfl.intoF4 (Nat.le_refl _))

theorem floatMinMax_keeps (hf : may.flags = true) {op : MinMaxOp} : OnNext (Keeps may s) (floatMinMax fmt op rd rs1 rs2 s) :=
  .next (Keeps.rfl.intoFpu hf)

theorem floatCompare_keeps (hf : may.flags = true) {op : CmpOp} : OnNext (Keeps may s) (floatCompare fmt op rd rs1 rs2 s) :=
  .naming (.next ((Keeps.rfl.accrue hf _).intoX (Nat.le_refl _)))

theorem floatClass_keeps : OnNext (Keeps may s) (floatClass fmt rd rs1 s) :=
  .naming (.next (Keeps.rfl.intoX (Nat.le_refl _)))

theorem floatToInt_keeps (hf : may.flags = true) {kind : IntKind} : OnNext (Keeps may s) (floatToInt fmt kind rd rs1 rm s) :=
  .naming (.rounding fun _ => (Keeps.rfl.accrue hf _).intoX (Nat.le_refl _))

theorem floatFromInt_keeps (hf : may.flags = true) {kind : IntKind} : OnNext (Keeps may s) (floatFromInt fmt kind rd rs1 rm s) :=
  .naming (.rounding fun _ => Keeps.rfl.intoFpu hf)

theorem floatConvert_keeps (hf : may.flags = true) {src dst : Fmt} : OnNext (Keeps may s) (floatConvert src dst rd rs1 rm s) :=
  .rounding fun _ => Keeps.rfl.intoFpu hf

theorem floatToX_keeps : OnNext (Keeps may s) (floatToX fmt rd rs1 s) :=
  .naming (.next (Keeps.rfl.intoX (Nat.le_refl _)))

theorem floatFromX_keeps : OnNext (Keeps may s) (floatFromX fmt rd rs1 s) :=
  .naming (.next (Keeps.rfl.intoF4 (Nat.le_refl _)))

/-- A packed instruction that may raise OV. -/
theorem packed_keeps (ho : may.ov = true) {w : Nat} {names : List Reg} {f : Nat → BitVec w × Bool} :
    OnNext (Keeps may s) (packed w names rd s f) :=
  .naming (.next ((Keeps.rfl.raiseOv ho _).intoX (Nat.le_refl _)))

theorem anyLane_false {p : Nat → Bool} (h : ∀ i, p i = false) : ∀ k, anyLane p k = false
  | 0 => Eq.refl _
  | k + 1 => by simp [anyLane, anyLane_false h k, h k]

/-- A packed instruction none of whose lanes clamps. -/
theorem packed_keeps_ov {w : Nat} {names : List Reg} {f : Nat → BitVec w × Bool} (hf : ∀ i, (f i).2 = false) :
    OnNext (Keeps may s) (packed w names rd s f) := by
  unfold packed
  rw [anyLane_false hf]
  exact .naming (.next (Keeps.rfl.intoX (Nat.le_refl _)))

theorem csrAccess_keeps (hc : may.csr = true) {number : BitVec 12} {update : BitVec s.bits → BitVec s.bits} :
    OnNext (Keeps may s) (csrAccess rd number s update) := by
  unfold csrAccess
  split
  · trivial
  · split
    · exact Keeps.rfl.halt _
    · refine .next (Keeps.retire (Keeps.csrWrite (Keeps.writeX ?_ _ _ (Nat.le_refl _)) hc _ _) (Nat.le_refl _)
        fun hs => hs.npc (ofNat_even (by decide)))
      split
      · exact Keeps.rfl.takeDraw
      · exact Keeps.rfl

theorem hostWrites_keeps (writes : List (Nat × Byte)) (m : Memory) (p : Nat → Bool) (n : Nat) :
    (m.wf = true → (writes.foldl (init := m) fun m w => if w.1 < n && p w.1 then m.write w.1 w.2 else m).wf = true) ∧
    ((∀ d ∈ m, d.1 < n) →
      ∀ d ∈ writes.foldl (init := m) fun m w => if w.1 < n && p w.1 then m.write w.1 w.2 else m, d.1 < n) := by
  induction writes generalizing m with
  | nil => exact ⟨id, id⟩
  | cons w ws ih =>
    simp only [List.foldl_cons]
    split
    · rename_i hw
      obtain ⟨h1, h2⟩ := ih (m.write w.1 w.2)
      refine ⟨fun h => h1 (Memory.wf_write _ _ _ h), fun h => h2 fun d hd => ?_⟩
      rcases Memory.mem_write hd with e | hd
      · simp only [Bool.and_eq_true, decide_eq_true_eq] at hw
        exact e ▸ hw.1
      · exact h d hd
    · exact ih m

theorem takeAnswer_keeps (a : HostAnswer) : Keeps may s (s.takeAnswer a) := by
  unfold State.takeAnswer
  split
  · rename_i writes
    obtain ⟨h1, h2⟩ := hostWrites_keeps writes s.mem (fun a => s.params.admits a 1 .write) (2 ^ s.bits)
    exact ((Keeps.rfl.takeDraw).memory h1 h2).intoXI (Nat.le_refl _)
  · exact Keeps.rfl.takeDraw.exit

theorem lmwFrom_keeps {step : BitVec s.bits} {go : State → State} (hgo : ∀ u, Keeps may s u → Keeps may s (go u)) :
    ∀ (rs : List Reg) (a : BitVec s.bits) (t : State), Keeps may s t → Keeps may s (lmwFrom step rs a t go)
  | [], _, t, h => hgo t h
  | q :: rs, a, _, h => h.loading fun v =>
      lmwFrom_keeps hgo rs (a + step) _ (h.writeX q v (Nat.mul_div_le s.bits 8))

theorem smwFrom_keeps {step : BitVec s.bits} {go : State → State} (hgo : ∀ u, Keeps may s u → Keeps may s (go u)) :
    ∀ (rs : List Reg) (a : BitVec s.bits) (t : State), Keeps may s t → Keeps may s (smwFrom step rs a t go)
  | [], _, t, h => hgo t h
  | _ :: rs, a, _, h => h.storing (Nat.le_refl _) fun u hu => smwFrom_keeps hgo rs (a + step) u hu

theorem lsmLength_even {n : Nat} (l : LsmLength) : (BitVec.ofNat n l.bytes).getLsbD 0 = false := by
  cases l <;> exact ofNat_even (by decide)

theorem lsmOp_keeps {rb : Reg} {first last : BitVec 5} {form : LsmForm} {paired : Bool}
    {transfer : BitVec s.bits → List Reg → BitVec s.bits → State → (State → State) → State}
    (h : ∀ step rs a go, (∀ u, Keeps may s u → Keeps may s (go u)) → Keeps may s (transfer step rs a s go)) :
    OnNext (Keeps may s) (lsmOp rb first last form paired s transfer) := by
  unfold lsmOp
  split
  · trivial
  · exact .naming (.next (.ite (Keeps.rfl.halt _) (h _ _ _ _ fun u hu => hu.intoXThen (Nat.le_refl _) (hu.npcEven (lsmLength_even _)))))

end shapes

end

end Sys2Proof.Machine
end

