-- ==== Sys2Proof/Laws/PerInstr.lean ====
section
/-! SUPPORT. The family LengthMark: the low bits of an instruction's word tell its length (spec/30_encoding.md R40). -/

namespace Sys2Proof.Laws.LengthMark

/-- A 16-bit word of the instruction is not marked as 32 bits long, a 32-bit word is. -/
def Statement (i : Instr) : Prop := ∀ p, encode i = some p →
  match p with
  | .half h => isFull h = false
  | .full w => w.extractLsb' 0 2 = 3

/-- The low bits of a word whose last field is the opcode are the opcode's. -/
theorem low_append {n k : Nat} (x : BitVec n) (op : BitVec k) (h : 2 ≤ k) :
    (x ++ op).extractLsb' 0 2 = op.extractLsb' 0 2 := by
  ext i hi
  have : i < k := by omega
  simp [BitVec.getLsbD_append, this]

theorem full_append {n : Nat} (x : BitVec n) (op : BitVec 7) (h : op.extractLsb' 0 2 = 3) :
    (x ++ op).extractLsb' 0 2 = 3 := (low_append x op (by omega)).trans h

theorem half_append (x : BitVec 14) (op : BitVec 2) (h : op ≠ 3) : isFull (x ++ op) = false := by
  have h1 : (x ++ op).extractLsb' 0 2 = op := by
    rw [low_append x op (by omega)]
    ext i hi
    simp
  exact beq_eq_false_iff_ne.mpr (by rw [h1]; exact h)

theorem lui (rd : Reg) (imm20 : BitVec 20) : Statement (.lui rd imm20) := by
  intro p h; cases h; exact full_append _ _ (by decide)
theorem auipc (rd : Reg) (imm20 : BitVec 20) : Statement (.auipc rd imm20) := by
  intro p h; cases h; exact full_append _ _ (by decide)
theorem jal (rd : Reg) (off : BitVec 20) : Statement (.jal rd off) := by
  intro p h; cases h; exact full_append _ _ (by decide)
theorem jalr (rd rs1 : Reg) (imm : BitVec 12) : Statement (.jalr rd rs1 imm) := by
  intro p h; cases h; exact full_append _ _ (by decide)
theorem beq (rs1 rs2 : Reg) (off : BitVec 12) : Statement (.beq rs1 rs2 off) := by
  intro p h; cases h; exact full_append _ _ (by decide)
theorem bne (rs1 rs2 : Reg) (off : BitVec 12) : Statement (.bne rs1 rs2 off) := by
  intro p h; cases h; exact full_append _ _ (by decide)
theorem blt (rs1 rs2 : Reg) (off : BitVec 12) : Statement (.blt rs1 rs2 off) := by
  intro p h; cases h; exact full_append _ _ (by decide)
theorem bge (rs1 rs2 : Reg) (off : BitVec 12) : Statement (.bge rs1 rs2 off) := by
  intro p h; cases h; exact full_append _ _ (by decide)
theorem bltu (rs1 rs2 : Reg) (off : BitVec 12) : Statement (.bltu rs1 rs2 off) := by
  intro p h; cases h; exact full_append _ _ (by decide)
theorem bgeu (rs1 rs2 : Reg) (off : BitVec 12) : Statement (.bgeu rs1 rs2 off) := by
  intro p h; cases h; exact full_append _ _ (by decide)
theorem lb (rd rs1 : Reg) (imm : BitVec 12) : Statement (.lb rd rs1 imm) := by
  intro p h; cases h; exact full_append _ _ (by decide)
theorem lh (rd rs1 : Reg) (imm : BitVec 12) : Statement (.lh rd rs1 imm) := by
  intro p h; cases h; exact full_append _ _ (by decide)
theorem lw (rd rs1 : Reg) (imm : BitVec 12) : Statement (.lw rd rs1 imm) := by
  intro p h; cases h; exact full_append _ _ (by decide)
theorem lbu (rd rs1 : Reg) (imm : BitVec 12) : Statement (.lbu rd rs1 imm) := by
  intro p h; cases h; exact full_append _ _ (by decide)
theorem lhu (rd rs1 : Reg) (imm : BitVec 12) : Statement (.lhu rd rs1 imm) := by
  intro p h; cases h; exact full_append _ _ (by decide)
theorem lwu (rd rs1 : Reg) (imm : BitVec 12) : Statement (.lwu rd rs1 imm) := by
  intro p h; cases h; exact full_append _ _ (by decide)
theorem ld (rd rs1 : Reg) (imm : BitVec 12) : Statement (.ld rd rs1 imm) := by
  intro p h; cases h; exact full_append _ _ (by decide)
theorem sb (rs2 rs1 : Reg) (imm : BitVec 12) : Statement (.sb rs2 rs1 imm) := by
  intro p h; cases h; exact full_append _ _ (by decide)
theorem sh (rs2 rs1 : Reg) (imm : BitVec 12) : Statement (.sh rs2 rs1 imm) := by
  intro p h; cases h; exact full_append _ _ (by decide)
theorem sw (rs2 rs1 : Reg) (imm : BitVec 12) : Statement (.sw rs2 rs1 imm) := by
  intro p h; cases h; exact full_append _ _ (by decide)
theorem sd (rs2 rs1 : Reg) (imm : BitVec 12) : Statement (.sd rs2 rs1 imm) := by
  intro p h; cases h; exact full_append _ _ (by decide)
theorem addi (rd rs1 : Reg) (imm : BitVec 12) : Statement (.addi rd rs1 imm) := by
  intro p h; cases h; exact full_append _ _ (by decide)
theorem slti (rd rs1 : Reg) (imm : BitVec 12) : Statement (.slti rd rs1 imm) := by
  intro p h; cases h; exact full_append _ _ (by decide)
theorem sltiu (rd rs1 : Reg) (imm : BitVec 12) : Statement (.sltiu rd rs1 imm) := by
  intro p h; cases h; exact full_append _ _ (by decide)
theorem xori (rd rs1 : Reg) (imm : BitVec 12) : Statement (.xori rd rs1 imm) := by
  intro p h; cases h; exact full_append _ _ (by decide)
theorem ori (rd rs1 : Reg) (imm : BitVec 12) : Statement (.ori rd rs1 imm) := by
  intro p h; cases h; exact full_append _ _ (by decide)
theorem andi (rd rs1 : Reg) (imm : BitVec 12) : Statement (.andi rd rs1 imm) := by
  intro p h; cases h; exact full_append _ _ (by decide)
theorem slli (rd rs1 : Reg) (shamt : BitVec 6) : Statement (.slli rd rs1 shamt) := by
  intro p h; cases h; exact full_append _ _ (by decide)
theorem srli (rd rs1 : Reg) (shamt : BitVec 6) : Statement (.srli rd rs1 shamt) := by
  intro p h; cases h; exact full_append _ _ (by decide)
theorem srai (rd rs1 : Reg) (shamt : BitVec 6) : Statement (.srai rd rs1 shamt) := by
  intro p h; cases h; exact full_append _ _ (by decide)
theorem add (rd rs1 rs2 : Reg) : Statement (.add rd rs1 rs2) := by
  intro p h; cases h; exact full_append _ _ (by decide)
theorem sub (rd rs1 rs2 : Reg) : Statement (.sub rd rs1 rs2) := by
  intro p h; cases h; exact full_append _ _ (by decide)
theorem sll (rd rs1 rs2 : Reg) : Statement (.sll rd rs1 rs2) := by
  intro p h; cases h; exact full_append _ _ (by decide)
theorem slt (rd rs1 rs2 : Reg) : Statement (.slt rd rs1 rs2) := by
  intro p h; cases h; exact full_append _ _ (by decide)
theorem sltu (rd rs1 rs2 : Reg) : Statement (.sltu rd rs1 rs2) := by
  intro p h; cases h; exact full_append _ _ (by decide)
theorem xor (rd rs1 rs2 : Reg) : Statement (.xor rd rs1 rs2) := by
  intro p h; cases h; exact full_append _ _ (by decide)
theorem srl (rd rs1 rs2 : Reg) : Statement (.srl rd rs1 rs2) := by
  intro p h; cases h; exact full_append _ _ (by decide)
theorem sra (rd rs1 rs2 : Reg) : Statement (.sra rd rs1 rs2) := by
  intro p h; cases h; exact full_append _ _ (by decide)
theorem or (rd rs1 rs2 : Reg) : Statement (.or rd rs1 rs2) := by
  intro p h; cases h; exact full_append _ _ (by decide)
theorem and (rd rs1 rs2 : Reg) : Statement (.and rd rs1 rs2) := by
  intro p h; cases h; exact full_append _ _ (by decide)
theorem addiw (rd rs1 : Reg) (imm : BitVec 12) : Statement (.addiw rd rs1 imm) := by
  intro p h; cases h; exact full_append _ _ (by decide)
theorem slliw (rd rs1 : Reg) (shamt : BitVec 5) : Statement (.slliw rd rs1 shamt) := by
  intro p h; cases h; exact full_append _ _ (by decide)
theorem srliw (rd rs1 : Reg) (shamt : BitVec 5) : Statement (.srliw rd rs1 shamt) := by
  intro p h; cases h; exact full_append _ _ (by decide)
theorem sraiw (rd rs1 : Reg) (shamt : BitVec 5) : Statement (.sraiw rd rs1 shamt) := by
  intro p h; cases h; exact full_append _ _ (by decide)
theorem addw (rd rs1 rs2 : Reg) : Statement (.addw rd rs1 rs2) := by
  intro p h; cases h; exact full_append _ _ (by decide)
theorem subw (rd rs1 rs2 : Reg) : Statement (.subw rd rs1 rs2) := by
  intro p h; cases h; exact full_append _ _ (by decide)
theorem sllw (rd rs1 rs2 : Reg) : Statement (.sllw rd rs1 rs2) := by
  intro p h; cases h; exact full_append _ _ (by decide)
theorem srlw (rd rs1 rs2 : Reg) : Statement (.srlw rd rs1 rs2) := by
  intro p h; cases h; exact full_append _ _ (by decide)
theorem sraw (rd rs1 rs2 : Reg) : Statement (.sraw rd rs1 rs2) := by
  intro p h; cases h; exact full_append _ _ (by decide)
theorem fence (fm pred succ : BitVec 4) (rs1 rd : Reg) : Statement (.fence fm pred succ rs1 rd) := by
  intro p h; cases h; exact full_append _ _ (by decide)
theorem fenceI (rd rs1 : Reg) (imm : BitVec 12) : Statement (.fenceI rd rs1 imm) := by
  intro p h; cases h; exact full_append _ _ (by decide)
theorem ecall : Statement (.ecall) := by
  intro p h; cases h; exact full_append _ _ (by decide)
theorem ebreak : Statement (.ebreak) := by
  intro p h; cases h; exact full_append _ _ (by decide)
theorem csrrw (rd : Reg) (csr : BitVec 12) (rs1 : Reg) : Statement (.csrrw rd csr rs1) := by
  intro p h; cases h; exact full_append _ _ (by decide)
theorem csrrs (rd : Reg) (csr : BitVec 12) (rs1 : Reg) : Statement (.csrrs rd csr rs1) := by
  intro p h; cases h; exact full_append _ _ (by decide)
theorem csrrc (rd : Reg) (csr : BitVec 12) (rs1 : Reg) : Statement (.csrrc rd csr rs1) := by
  intro p h; cases h; exact full_append _ _ (by decide)
theorem csrrwi (rd : Reg) (csr : BitVec 12) (uimm : BitVec 5) : Statement (.csrrwi rd csr uimm) := by
  intro p h; cases h; exact full_append _ _ (by decide)
theorem csrrsi (rd : Reg) (csr : BitVec 12) (uimm : BitVec 5) : Statement (.csrrsi rd csr uimm) := by
  intro p h; cases h; exact full_append _ _ (by decide)
theorem csrrci (rd : Reg) (csr : BitVec 12) (uimm : BitVec 5) : Statement (.csrrci rd csr uimm) := by
  intro p h; cases h; exact full_append _ _ (by decide)
theorem cAddi4spn (rd : CReg) (nzuimm : BitVec 8) : Statement (.cAddi4spn rd nzuimm) := by
  intro p h; cases h; exact half_append _ _ (by decide)
theorem cFld (rd rs1 : CReg) (uimm : BitVec 5) : Statement (.cFld rd rs1 uimm) := by
  intro p h; cases h; exact half_append _ _ (by decide)
theorem cLw (rd rs1 : CReg) (uimm : BitVec 5) : Statement (.cLw rd rs1 uimm) := by
  intro p h; cases h; exact half_append _ _ (by decide)
theorem cFlw (rd rs1 : CReg) (uimm : BitVec 5) : Statement (.cFlw rd rs1 uimm) := by
  intro p h; cases h; exact half_append _ _ (by decide)
theorem cLd (rd rs1 : CReg) (uimm : BitVec 5) : Statement (.cLd rd rs1 uimm) := by
  intro p h; cases h; exact half_append _ _ (by decide)
theorem cFsd (rs2 rs1 : CReg) (uimm : BitVec 5) : Statement (.cFsd rs2 rs1 uimm) := by
  intro p h; cases h; exact half_append _ _ (by decide)
theorem cSw (rs2 rs1 : CReg) (uimm : BitVec 5) : Statement (.cSw rs2 rs1 uimm) := by
  intro p h; cases h; exact half_append _ _ (by decide)
theorem cFsw (rs2 rs1 : CReg) (uimm : BitVec 5) : Statement (.cFsw rs2 rs1 uimm) := by
  intro p h; cases h; exact half_append _ _ (by decide)
theorem cSd (rs2 rs1 : CReg) (uimm : BitVec 5) : Statement (.cSd rs2 rs1 uimm) := by
  intro p h; cases h; exact half_append _ _ (by decide)
theorem cNop : Statement (.cNop) := by
  intro p h; cases h; exact half_append _ _ (by decide)
theorem cAddi (rd : Reg) (imm : BitVec 6) : Statement (.cAddi rd imm) := by
  intro p h; cases h; exact half_append _ _ (by decide)
theorem cJal (off : BitVec 11) : Statement (.cJal off) := by
  intro p h; cases h; exact half_append _ _ (by decide)
theorem cAddiw (rd : Reg) (imm : BitVec 6) : Statement (.cAddiw rd imm) := by
  intro p h; cases h; exact half_append _ _ (by decide)
theorem cLi (rd : Reg) (imm : BitVec 6) : Statement (.cLi rd imm) := by
  intro p h; cases h; exact half_append _ _ (by decide)
theorem cAddi16sp (nzimm : BitVec 6) : Statement (.cAddi16sp nzimm) := by
  intro p h; cases h; exact half_append _ _ (by decide)
theorem cLui (rd : Reg) (nzimm : BitVec 6) : Statement (.cLui rd nzimm) := by
  intro p h; cases h; exact half_append _ _ (by decide)
theorem cSrli (rd : CReg) (shamt : BitVec 6) : Statement (.cSrli rd shamt) := by
  intro p h; cases h; exact half_append _ _ (by decide)
theorem cSrai (rd : CReg) (shamt : BitVec 6) : Statement (.cSrai rd shamt) := by
  intro p h; cases h; exact half_append _ _ (by decide)
theorem cAndi (rd : CReg) (imm : BitVec 6) : Statement (.cAndi rd imm) := by
  intro p h; cases h; exact half_append _ _ (by decide)
theorem cSub (rd rs2 : CReg) : Statement (.cSub rd rs2) := by
  intro p h; cases h; exact half_append _ _ (by decide)
theorem cXor (rd rs2 : CReg) : Statement (.cXor rd rs2) := by
  intro p h; cases h; exact half_append _ _ (by decide)
theorem cOr (rd rs2 : CReg) : Statement (.cOr rd rs2) := by
  intro p h; cases h; exact half_append _ _ (by decide)
theorem cAnd (rd rs2 : CReg) : Statement (.cAnd rd rs2) := by
  intro p h; cases h; exact half_append _ _ (by decide)
theorem cSubw (rd rs2 : CReg) : Statement (.cSubw rd rs2) := by
  intro p h; cases h; exact half_append _ _ (by decide)
theorem cAddw (rd rs2 : CReg) : Statement (.cAddw rd rs2) := by
  intro p h; cases h; exact half_append _ _ (by decide)
theorem cJ (off : BitVec 11) : Statement (.cJ off) := by
  intro p h; cases h; exact half_append _ _ (by decide)
theorem cBeqz (rs1 : CReg) (off : BitVec 8) : Statement (.cBeqz rs1 off) := by
  intro p h; cases h; exact half_append _ _ (by decide)
theorem cBnez (rs1 : CReg) (off : BitVec 8) : Statement (.cBnez rs1 off) := by
  intro p h; cases h; exact half_append _ _ (by decide)
theorem cSlli (rd : Reg) (shamt : BitVec 6) : Statement (.cSlli rd shamt) := by
  intro p h; cases h; exact half_append _ _ (by decide)
theorem cFldsp (rd : Reg) (uimm : BitVec 6) : Statement (.cFldsp rd uimm) := by
  intro p h; cases h; exact half_append _ _ (by decide)
theorem cLwsp (rd : Reg) (uimm : BitVec 6) : Statement (.cLwsp rd uimm) := by
  intro p h; cases h; exact half_append _ _ (by decide)
theorem cFlwsp (rd : Reg) (uimm : BitVec 6) : Statement (.cFlwsp rd uimm) := by
  intro p h; cases h; exact half_append _ _ (by decide)
theorem cLdsp (rd : Reg) (uimm : BitVec 6) : Statement (.cLdsp rd uimm) := by
  intro p h; cases h; exact half_append _ _ (by decide)
theorem cJr (rs1 : Reg) : Statement (.cJr rs1) := by
  intro p h; cases h; exact half_append _ _ (by decide)
theorem cMv (rd rs2 : Reg) : Statement (.cMv rd rs2) := by
  intro p h; cases h; exact half_append _ _ (by decide)
theorem cEbreak : Statement (.cEbreak) := by
  intro p h; cases h; exact half_append _ _ (by decide)
theorem cJalr (rs1 : Reg) : Statement (.cJalr rs1) := by
  intro p h; cases h; exact half_append _ _ (by decide)
theorem cAdd (rd rs2 : Reg) : Statement (.cAdd rd rs2) := by
  intro p h; cases h; exact half_append _ _ (by decide)
theorem cFsdsp (rs2 : Reg) (uimm : BitVec 6) : Statement (.cFsdsp rs2 uimm) := by
  intro p h; cases h; exact half_append _ _ (by decide)
theorem cSwsp (rs2 : Reg) (uimm : BitVec 6) : Statement (.cSwsp rs2 uimm) := by
  intro p h; cases h; exact half_append _ _ (by decide)
theorem cFswsp (rs2 : Reg) (uimm : BitVec 6) : Statement (.cFswsp rs2 uimm) := by
  intro p h; cases h; exact half_append _ _ (by decide)
theorem cSdsp (rs2 : Reg) (uimm : BitVec 6) : Statement (.cSdsp rs2 uimm) := by
  intro p h; cases h; exact half_append _ _ (by decide)
theorem mul (rd rs1 rs2 : Reg) : Statement (.mul rd rs1 rs2) := by
  intro p h; cases h; exact full_append _ _ (by decide)
theorem mulh (rd rs1 rs2 : Reg) : Statement (.mulh rd rs1 rs2) := by
  intro p h; cases h; exact full_append _ _ (by decide)
theorem mulhsu (rd rs1 rs2 : Reg) : Statement (.mulhsu rd rs1 rs2) := by
  intro p h; cases h; exact full_append _ _ (by decide)
theorem mulhu (rd rs1 rs2 : Reg) : Statement (.mulhu rd rs1 rs2) := by
  intro p h; cases h; exact full_append _ _ (by decide)
theorem div (rd rs1 rs2 : Reg) : Statement (.div rd rs1 rs2) := by
  intro p h; cases h; exact full_append _ _ (by decide)
theorem divu (rd rs1 rs2 : Reg) : Statement (.divu rd rs1 rs2) := by
  intro p h; cases h; exact full_append _ _ (by decide)
theorem rem (rd rs1 rs2 : Reg) : Statement (.rem rd rs1 rs2) := by
  intro p h; cases h; exact full_append _ _ (by decide)
theorem remu (rd rs1 rs2 : Reg) : Statement (.remu rd rs1 rs2) := by
  intro p h; cases h; exact full_append _ _ (by decide)
theorem mulw (rd rs1 rs2 : Reg) : Statement (.mulw rd rs1 rs2) := by
  intro p h; cases h; exact full_append _ _ (by decide)
theorem divw (rd rs1 rs2 : Reg) : Statement (.divw rd rs1 rs2) := by
  intro p h; cases h; exact full_append _ _ (by decide)
theorem divuw (rd rs1 rs2 : Reg) : Statement (.divuw rd rs1 rs2) := by
  intro p h; cases h; exact full_append _ _ (by decide)
theorem remw (rd rs1 rs2 : Reg) : Statement (.remw rd rs1 rs2) := by
  intro p h; cases h; exact full_append _ _ (by decide)
theorem remuw (rd rs1 rs2 : Reg) : Statement (.remuw rd rs1 rs2) := by
  intro p h; cases h; exact full_append _ _ (by decide)
theorem lrW (rd rs1 : Reg) (aq rl : BitVec 1) : Statement (.lrW rd rs1 aq rl) := by
  intro p h; cases h; exact full_append _ _ (by decide)
theorem scW (rd rs2 rs1 : Reg) (aq rl : BitVec 1) : Statement (.scW rd rs2 rs1 aq rl) := by
  intro p h; cases h; exact full_append _ _ (by decide)
theorem amoswapW (rd rs2 rs1 : Reg) (aq rl : BitVec 1) : Statement (.amoswapW rd rs2 rs1 aq rl) := by
  intro p h; cases h; exact full_append _ _ (by decide)
theorem amoaddW (rd rs2 rs1 : Reg) (aq rl : BitVec 1) : Statement (.amoaddW rd rs2 rs1 aq rl) := by
  intro p h; cases h; exact full_append _ _ (by decide)
theorem amoxorW (rd rs2 rs1 : Reg) (aq rl : BitVec 1) : Statement (.amoxorW rd rs2 rs1 aq rl) := by
  intro p h; cases h; exact full_append _ _ (by decide)
theorem amoandW (rd rs2 rs1 : Reg) (aq rl : BitVec 1) : Statement (.amoandW rd rs2 rs1 aq rl) := by
  intro p h; cases h; exact full_append _ _ (by decide)
theorem amoorW (rd rs2 rs1 : Reg) (aq rl : BitVec 1) : Statement (.amoorW rd rs2 rs1 aq rl) := by
  intro p h; cases h; exact full_append _ _ (by decide)
theorem amominW (rd rs2 rs1 : Reg) (aq rl : BitVec 1) : Statement (.amominW rd rs2 rs1 aq rl) := by
  intro p h; cases h; exact full_append _ _ (by decide)
theorem amomaxW (rd rs2 rs1 : Reg) (aq rl : BitVec 1) : Statement (.amomaxW rd rs2 rs1 aq rl) := by
  intro p h; cases h; exact full_append _ _ (by decide)
theorem amominuW (rd rs2 rs1 : Reg) (aq rl : BitVec 1) : Statement (.amominuW rd rs2 rs1 aq rl) := by
  intro p h; cases h; exact full_append _ _ (by decide)
theorem amomaxuW (rd rs2 rs1 : Reg) (aq rl : BitVec 1) : Statement (.amomaxuW rd rs2 rs1 aq rl) := by
  intro p h; cases h; exact full_append _ _ (by decide)
theorem lrD (rd rs1 : Reg) (aq rl : BitVec 1) : Statement (.lrD rd rs1 aq rl) := by
  intro p h; cases h; exact full_append _ _ (by decide)
theorem scD (rd rs2 rs1 : Reg) (aq rl : BitVec 1) : Statement (.scD rd rs2 rs1 aq rl) := by
  intro p h; cases h; exact full_append _ _ (by decide)
theorem amoswapD (rd rs2 rs1 : Reg) (aq rl : BitVec 1) : Statement (.amoswapD rd rs2 rs1 aq rl) := by
  intro p h; cases h; exact full_append _ _ (by decide)
theorem amoaddD (rd rs2 rs1 : Reg) (aq rl : BitVec 1) : Statement (.amoaddD rd rs2 rs1 aq rl) := by
  intro p h; cases h; exact full_append _ _ (by decide)
theorem amoxorD (rd rs2 rs1 : Reg) (aq rl : BitVec 1) : Statement (.amoxorD rd rs2 rs1 aq rl) := by
  intro p h; cases h; exact full_append _ _ (by decide)
theorem amoandD (rd rs2 rs1 : Reg) (aq rl : BitVec 1) : Statement (.amoandD rd rs2 rs1 aq rl) := by
  intro p h; cases h; exact full_append _ _ (by decide)
theorem amoorD (rd rs2 rs1 : Reg) (aq rl : BitVec 1) : Statement (.amoorD rd rs2 rs1 aq rl) := by
  intro p h; cases h; exact full_append _ _ (by decide)
theorem amominD (rd rs2 rs1 : Reg) (aq rl : BitVec 1) : Statement (.amominD rd rs2 rs1 aq rl) := by
  intro p h; cases h; exact full_append _ _ (by decide)
theorem amomaxD (rd rs2 rs1 : Reg) (aq rl : BitVec 1) : Statement (.amomaxD rd rs2 rs1 aq rl) := by
  intro p h; cases h; exact full_append _ _ (by decide)
theorem amominuD (rd rs2 rs1 : Reg) (aq rl : BitVec 1) : Statement (.amominuD rd rs2 rs1 aq rl) := by
  intro p h; cases h; exact full_append _ _ (by decide)
theorem amomaxuD (rd rs2 rs1 : Reg) (aq rl : BitVec 1) : Statement (.amomaxuD rd rs2 rs1 aq rl) := by
  intro p h; cases h; exact full_append _ _ (by decide)
theorem fcvtSD (rd rs1 : Reg) (rm : BitVec 3) : Statement (.fcvtSD rd rs1 rm) := by
  intro p h; cases h; exact full_append _ _ (by decide)
theorem fcvtDS (rd rs1 : Reg) (rm : BitVec 3) : Statement (.fcvtDS rd rs1 rm) := by
  intro p h; cases h; exact full_append _ _ (by decide)
theorem fcvtSH (rd rs1 : Reg) (rm : BitVec 3) : Statement (.fcvtSH rd rs1 rm) := by
  intro p h; cases h; exact full_append _ _ (by decide)
theorem fcvtHS (rd rs1 : Reg) (rm : BitVec 3) : Statement (.fcvtHS rd rs1 rm) := by
  intro p h; cases h; exact full_append _ _ (by decide)
theorem fcvtDH (rd rs1 : Reg) (rm : BitVec 3) : Statement (.fcvtDH rd rs1 rm) := by
  intro p h; cases h; exact full_append _ _ (by decide)
theorem fcvtHD (rd rs1 : Reg) (rm : BitVec 3) : Statement (.fcvtHD rd rs1 rm) := by
  intro p h; cases h; exact full_append _ _ (by decide)
theorem flw (rd rs1 : Reg) (imm : BitVec 12) : Statement (.flw rd rs1 imm) := by
  intro p h; cases h; exact full_append _ _ (by decide)
theorem fsw (rs2 rs1 : Reg) (imm : BitVec 12) : Statement (.fsw rs2 rs1 imm) := by
  intro p h; cases h; exact full_append _ _ (by decide)
theorem fmaddS (rd rs1 rs2 rs3 : Reg) (rm : BitVec 3) : Statement (.fmaddS rd rs1 rs2 rs3 rm) := by
  intro p h; cases h; exact full_append _ _ (by decide)
theorem fmsubS (rd rs1 rs2 rs3 : Reg) (rm : BitVec 3) : Statement (.fmsubS rd rs1 rs2 rs3 rm) := by
  intro p h; cases h; exact full_append _ _ (by decide)
theorem fnmsubS (rd rs1 rs2 rs3 : Reg) (rm : BitVec 3) : Statement (.fnmsubS rd rs1 rs2 rs3 rm) := by
  intro p h; cases h; exact full_append _ _ (by decide)
theorem fnmaddS (rd rs1 rs2 rs3 : Reg) (rm : BitVec 3) : Statement (.fnmaddS rd rs1 rs2 rs3 rm) := by
  intro p h; cases h; exact full_append _ _ (by decide)
theorem faddS (rd rs1 rs2 : Reg) (rm : BitVec 3) : Statement (.faddS rd rs1 rs2 rm) := by
  intro p h; cases h; exact full_append _ _ (by decide)
theorem fsubS (rd rs1 rs2 : Reg) (rm : BitVec 3) : Statement (.fsubS rd rs1 rs2 rm) := by
  intro p h; cases h; exact full_append _ _ (by decide)
theorem fmulS (rd rs1 rs2 : Reg) (rm : BitVec 3) : Statement (.fmulS rd rs1 rs2 rm) := by
  intro p h; cases h; exact full_append _ _ (by decide)
theorem fdivS (rd rs1 rs2 : Reg) (rm : BitVec 3) : Statement (.fdivS rd rs1 rs2 rm) := by
  intro p h; cases h; exact full_append _ _ (by decide)
theorem fsqrtS (rd rs1 : Reg) (rm : BitVec 3) : Statement (.fsqrtS rd rs1 rm) := by
  intro p h; cases h; exact full_append _ _ (by decide)
theorem fsgnjS (rd rs1 rs2 : Reg) : Statement (.fsgnjS rd rs1 rs2) := by
  intro p h; cases h; exact full_append _ _ (by decide)
theorem fsgnjnS (rd rs1 rs2 : Reg) : Statement (.fsgnjnS rd rs1 rs2) := by
  intro p h; cases h; exact full_append _ _ (by decide)
theorem fsgnjxS (rd rs1 rs2 : Reg) : Statement (.fsgnjxS rd rs1 rs2) := by
  intro p h; cases h; exact full_append _ _ (by decide)
theorem fminS (rd rs1 rs2 : Reg) : Statement (.fminS rd rs1 rs2) := by
  intro p h; cases h; exact full_append _ _ (by decide)
theorem fmaxS (rd rs1 rs2 : Reg) : Statement (.fmaxS rd rs1 rs2) := by
  intro p h; cases h; exact full_append _ _ (by decide)
theorem feqS (rd rs1 rs2 : Reg) : Statement (.feqS rd rs1 rs2) := by
  intro p h; cases h; exact full_append _ _ (by decide)
theorem fltS (rd rs1 rs2 : Reg) : Statement (.fltS rd rs1 rs2) := by
  intro p h; cases h; exact full_append _ _ (by decide)
theorem fleS (rd rs1 rs2 : Reg) : Statement (.fleS rd rs1 rs2) := by
  intro p h; cases h; exact full_append _ _ (by decide)
theorem fclassS (rd rs1 : Reg) : Statement (.fclassS rd rs1) := by
  intro p h; cases h; exact full_append _ _ (by decide)
theorem fcvtWS (rd rs1 : Reg) (rm : BitVec 3) : Statement (.fcvtWS rd rs1 rm) := by
  intro p h; cases h; exact full_append _ _ (by decide)
theorem fcvtSW (rd rs1 : Reg) (rm : BitVec 3) : Statement (.fcvtSW rd rs1 rm) := by
  intro p h; cases h; exact full_append _ _ (by decide)
theorem fcvtWuS (rd rs1 : Reg) (rm : BitVec 3) : Statement (.fcvtWuS rd rs1 rm) := by
  intro p h; cases h; exact full_append _ _ (by decide)
theorem fcvtSWu (rd rs1 : Reg) (rm : BitVec 3) : Statement (.fcvtSWu rd rs1 rm) := by
  intro p h; cases h; exact full_append _ _ (by decide)
theorem fcvtLS (rd rs1 : Reg) (rm : BitVec 3) : Statement (.fcvtLS rd rs1 rm) := by
  intro p h; cases h; exact full_append _ _ (by decide)
theorem fcvtSL (rd rs1 : Reg) (rm : BitVec 3) : Statement (.fcvtSL rd rs1 rm) := by
  intro p h; cases h; exact full_append _ _ (by decide)
theorem fcvtLuS (rd rs1 : Reg) (rm : BitVec 3) : Statement (.fcvtLuS rd rs1 rm) := by
  intro p h; cases h; exact full_append _ _ (by decide)
theorem fcvtSLu (rd rs1 : Reg) (rm : BitVec 3) : Statement (.fcvtSLu rd rs1 rm) := by
  intro p h; cases h; exact full_append _ _ (by decide)
theorem fmvXW (rd rs1 : Reg) : Statement (.fmvXW rd rs1) := by
  intro p h; cases h; exact full_append _ _ (by decide)
theorem fmvWX (rd rs1 : Reg) : Statement (.fmvWX rd rs1) := by
  intro p h; cases h; exact full_append _ _ (by decide)
theorem fld (rd rs1 : Reg) (imm : BitVec 12) : Statement (.fld rd rs1 imm) := by
  intro p h; cases h; exact full_append _ _ (by decide)
theorem fsd (rs2 rs1 : Reg) (imm : BitVec 12) : Statement (.fsd rs2 rs1 imm) := by
  intro p h; cases h; exact full_append _ _ (by decide)
theorem fmaddD (rd rs1 rs2 rs3 : Reg) (rm : BitVec 3) : Statement (.fmaddD rd rs1 rs2 rs3 rm) := by
  intro p h; cases h; exact full_append _ _ (by decide)
theorem fmsubD (rd rs1 rs2 rs3 : Reg) (rm : BitVec 3) : Statement (.fmsubD rd rs1 rs2 rs3 rm) := by
  intro p h; cases h; exact full_append _ _ (by decide)
theorem fnmsubD (rd rs1 rs2 rs3 : Reg) (rm : BitVec 3) : Statement (.fnmsubD rd rs1 rs2 rs3 rm) := by
  intro p h; cases h; exact full_append _ _ (by decide)
theorem fnmaddD (rd rs1 rs2 rs3 : Reg) (rm : BitVec 3) : Statement (.fnmaddD rd rs1 rs2 rs3 rm) := by
  intro p h; cases h; exact full_append _ _ (by decide)
theorem faddD (rd rs1 rs2 : Reg) (rm : BitVec 3) : Statement (.faddD rd rs1 rs2 rm) := by
  intro p h; cases h; exact full_append _ _ (by decide)
theorem fsubD (rd rs1 rs2 : Reg) (rm : BitVec 3) : Statement (.fsubD rd rs1 rs2 rm) := by
  intro p h; cases h; exact full_append _ _ (by decide)
theorem fmulD (rd rs1 rs2 : Reg) (rm : BitVec 3) : Statement (.fmulD rd rs1 rs2 rm) := by
  intro p h; cases h; exact full_append _ _ (by decide)
theorem fdivD (rd rs1 rs2 : Reg) (rm : BitVec 3) : Statement (.fdivD rd rs1 rs2 rm) := by
  intro p h; cases h; exact full_append _ _ (by decide)
theorem fsqrtD (rd rs1 : Reg) (rm : BitVec 3) : Statement (.fsqrtD rd rs1 rm) := by
  intro p h; cases h; exact full_append _ _ (by decide)
theorem fsgnjD (rd rs1 rs2 : Reg) : Statement (.fsgnjD rd rs1 rs2) := by
  intro p h; cases h; exact full_append _ _ (by decide)
theorem fsgnjnD (rd rs1 rs2 : Reg) : Statement (.fsgnjnD rd rs1 rs2) := by
  intro p h; cases h; exact full_append _ _ (by decide)
theorem fsgnjxD (rd rs1 rs2 : Reg) : Statement (.fsgnjxD rd rs1 rs2) := by
  intro p h; cases h; exact full_append _ _ (by decide)
theorem fminD (rd rs1 rs2 : Reg) : Statement (.fminD rd rs1 rs2) := by
  intro p h; cases h; exact full_append _ _ (by decide)
theorem fmaxD (rd rs1 rs2 : Reg) : Statement (.fmaxD rd rs1 rs2) := by
  intro p h; cases h; exact full_append _ _ (by decide)
theorem feqD (rd rs1 rs2 : Reg) : Statement (.feqD rd rs1 rs2) := by
  intro p h; cases h; exact full_append _ _ (by decide)
theorem fltD (rd rs1 rs2 : Reg) : Statement (.fltD rd rs1 rs2) := by
  intro p h; cases h; exact full_append _ _ (by decide)
theorem fleD (rd rs1 rs2 : Reg) : Statement (.fleD rd rs1 rs2) := by
  intro p h; cases h; exact full_append _ _ (by decide)
theorem fclassD (rd rs1 : Reg) : Statement (.fclassD rd rs1) := by
  intro p h; cases h; exact full_append _ _ (by decide)
theorem fcvtWD (rd rs1 : Reg) (rm : BitVec 3) : Statement (.fcvtWD rd rs1 rm) := by
  intro p h; cases h; exact full_append _ _ (by decide)
theorem fcvtDW (rd rs1 : Reg) (rm : BitVec 3) : Statement (.fcvtDW rd rs1 rm) := by
  intro p h; cases h; exact full_append _ _ (by decide)
theorem fcvtWuD (rd rs1 : Reg) (rm : BitVec 3) : Statement (.fcvtWuD rd rs1 rm) := by
  intro p h; cases h; exact full_append _ _ (by decide)
theorem fcvtDWu (rd rs1 : Reg) (rm : BitVec 3) : Statement (.fcvtDWu rd rs1 rm) := by
  intro p h; cases h; exact full_append _ _ (by decide)
theorem fcvtLD (rd rs1 : Reg) (rm : BitVec 3) : Statement (.fcvtLD rd rs1 rm) := by
  intro p h; cases h; exact full_append _ _ (by decide)
theorem fcvtDL (rd rs1 : Reg) (rm : BitVec 3) : Statement (.fcvtDL rd rs1 rm) := by
  intro p h; cases h; exact full_append _ _ (by decide)
theorem fcvtLuD (rd rs1 : Reg) (rm : BitVec 3) : Statement (.fcvtLuD rd rs1 rm) := by
  intro p h; cases h; exact full_append _ _ (by decide)
theorem fcvtDLu (rd rs1 : Reg) (rm : BitVec 3) : Statement (.fcvtDLu rd rs1 rm) := by
  intro p h; cases h; exact full_append _ _ (by decide)
theorem fmvXD (rd rs1 : Reg) : Statement (.fmvXD rd rs1) := by
  intro p h; cases h; exact full_append _ _ (by decide)
theorem fmvDX (rd rs1 : Reg) : Statement (.fmvDX rd rs1) := by
  intro p h; cases h; exact full_append _ _ (by decide)
theorem flh (rd rs1 : Reg) (imm : BitVec 12) : Statement (.flh rd rs1 imm) := by
  intro p h; cases h; exact full_append _ _ (by decide)
theorem fsh (rs2 rs1 : Reg) (imm : BitVec 12) : Statement (.fsh rs2 rs1 imm) := by
  intro p h; cases h; exact full_append _ _ (by decide)
theorem fmaddH (rd rs1 rs2 rs3 : Reg) (rm : BitVec 3) : Statement (.fmaddH rd rs1 rs2 rs3 rm) := by
  intro p h; cases h; exact full_append _ _ (by decide)
theorem fmsubH (rd rs1 rs2 rs3 : Reg) (rm : BitVec 3) : Statement (.fmsubH rd rs1 rs2 rs3 rm) := by
  intro p h; cases h; exact full_append _ _ (by decide)
theorem fnmsubH (rd rs1 rs2 rs3 : Reg) (rm : BitVec 3) : Statement (.fnmsubH rd rs1 rs2 rs3 rm) := by
  intro p h; cases h; exact full_append _ _ (by decide)
theorem fnmaddH (rd rs1 rs2 rs3 : Reg) (rm : BitVec 3) : Statement (.fnmaddH rd rs1 rs2 rs3 rm) := by
  intro p h; cases h; exact full_append _ _ (by decide)
theorem faddH (rd rs1 rs2 : Reg) (rm : BitVec 3) : Statement (.faddH rd rs1 rs2 rm) := by
  intro p h; cases h; exact full_append _ _ (by decide)
theorem fsubH (rd rs1 rs2 : Reg) (rm : BitVec 3) : Statement (.fsubH rd rs1 rs2 rm) := by
  intro p h; cases h; exact full_append _ _ (by decide)
theorem fmulH (rd rs1 rs2 : Reg) (rm : BitVec 3) : Statement (.fmulH rd rs1 rs2 rm) := by
  intro p h; cases h; exact full_append _ _ (by decide)
theorem fdivH (rd rs1 rs2 : Reg) (rm : BitVec 3) : Statement (.fdivH rd rs1 rs2 rm) := by
  intro p h; cases h; exact full_append _ _ (by decide)
theorem fsqrtH (rd rs1 : Reg) (rm : BitVec 3) : Statement (.fsqrtH rd rs1 rm) := by
  intro p h; cases h; exact full_append _ _ (by decide)
theorem fsgnjH (rd rs1 rs2 : Reg) : Statement (.fsgnjH rd rs1 rs2) := by
  intro p h; cases h; exact full_append _ _ (by decide)
theorem fsgnjnH (rd rs1 rs2 : Reg) : Statement (.fsgnjnH rd rs1 rs2) := by
  intro p h; cases h; exact full_append _ _ (by decide)
theorem fsgnjxH (rd rs1 rs2 : Reg) : Statement (.fsgnjxH rd rs1 rs2) := by
  intro p h; cases h; exact full_append _ _ (by decide)
theorem fminH (rd rs1 rs2 : Reg) : Statement (.fminH rd rs1 rs2) := by
  intro p h; cases h; exact full_append _ _ (by decide)
theorem fmaxH (rd rs1 rs2 : Reg) : Statement (.fmaxH rd rs1 rs2) := by
  intro p h; cases h; exact full_append _ _ (by decide)
theorem feqH (rd rs1 rs2 : Reg) : Statement (.feqH rd rs1 rs2) := by
  intro p h; cases h; exact full_append _ _ (by decide)
theorem fltH (rd rs1 rs2 : Reg) : Statement (.fltH rd rs1 rs2) := by
  intro p h; cases h; exact full_append _ _ (by decide)
theorem fleH (rd rs1 rs2 : Reg) : Statement (.fleH rd rs1 rs2) := by
  intro p h; cases h; exact full_append _ _ (by decide)
theorem fclassH (rd rs1 : Reg) : Statement (.fclassH rd rs1) := by
  intro p h; cases h; exact full_append _ _ (by decide)
theorem fcvtWH (rd rs1 : Reg) (rm : BitVec 3) : Statement (.fcvtWH rd rs1 rm) := by
  intro p h; cases h; exact full_append _ _ (by decide)
theorem fcvtHW (rd rs1 : Reg) (rm : BitVec 3) : Statement (.fcvtHW rd rs1 rm) := by
  intro p h; cases h; exact full_append _ _ (by decide)
theorem fcvtWuH (rd rs1 : Reg) (rm : BitVec 3) : Statement (.fcvtWuH rd rs1 rm) := by
  intro p h; cases h; exact full_append _ _ (by decide)
theorem fcvtHWu (rd rs1 : Reg) (rm : BitVec 3) : Statement (.fcvtHWu rd rs1 rm) := by
  intro p h; cases h; exact full_append _ _ (by decide)
theorem fcvtLH (rd rs1 : Reg) (rm : BitVec 3) : Statement (.fcvtLH rd rs1 rm) := by
  intro p h; cases h; exact full_append _ _ (by decide)
theorem fcvtHL (rd rs1 : Reg) (rm : BitVec 3) : Statement (.fcvtHL rd rs1 rm) := by
  intro p h; cases h; exact full_append _ _ (by decide)
theorem fcvtLuH (rd rs1 : Reg) (rm : BitVec 3) : Statement (.fcvtLuH rd rs1 rm) := by
  intro p h; cases h; exact full_append _ _ (by decide)
theorem fcvtHLu (rd rs1 : Reg) (rm : BitVec 3) : Statement (.fcvtHLu rd rs1 rm) := by
  intro p h; cases h; exact full_append _ _ (by decide)
theorem fmvXH (rd rs1 : Reg) : Statement (.fmvXH rd rs1) := by
  intro p h; cases h; exact full_append _ _ (by decide)
theorem fmvHX (rd rs1 : Reg) : Statement (.fmvHX rd rs1) := by
  intro p h; cases h; exact full_append _ _ (by decide)
theorem fcvtSBf16 (rd rs1 : Reg) : Statement (.fcvtSBf16 rd rs1) := by
  intro p h; cases h
theorem fcvtBf16S (rd rs1 : Reg) : Statement (.fcvtBf16S rd rs1) := by
  intro p h; cases h
theorem add16 (rd rs1 rs2 : Reg) : Statement (.add16 rd rs1 rs2) := by
  intro p h; cases h; exact full_append _ _ (by decide)
theorem radd16 (rd rs1 rs2 : Reg) : Statement (.radd16 rd rs1 rs2) := by
  intro p h; cases h; exact full_append _ _ (by decide)
theorem uradd16 (rd rs1 rs2 : Reg) : Statement (.uradd16 rd rs1 rs2) := by
  intro p h; cases h; exact full_append _ _ (by decide)
theorem kadd16 (rd rs1 rs2 : Reg) : Statement (.kadd16 rd rs1 rs2) := by
  intro p h; cases h; exact full_append _ _ (by decide)
theorem ukadd16 (rd rs1 rs2 : Reg) : Statement (.ukadd16 rd rs1 rs2) := by
  intro p h; cases h; exact full_append _ _ (by decide)
theorem sub16 (rd rs1 rs2 : Reg) : Statement (.sub16 rd rs1 rs2) := by
  intro p h; cases h; exact full_append _ _ (by decide)
theorem rsub16 (rd rs1 rs2 : Reg) : Statement (.rsub16 rd rs1 rs2) := by
  intro p h; cases h; exact full_append _ _ (by decide)
theorem ursub16 (rd rs1 rs2 : Reg) : Statement (.ursub16 rd rs1 rs2) := by
  intro p h; cases h; exact full_append _ _ (by decide)
theorem ksub16 (rd rs1 rs2 : Reg) : Statement (.ksub16 rd rs1 rs2) := by
  intro p h; cases h; exact full_append _ _ (by decide)
theorem uksub16 (rd rs1 rs2 : Reg) : Statement (.uksub16 rd rs1 rs2) := by
  intro p h; cases h; exact full_append _ _ (by decide)
theorem add8 (rd rs1 rs2 : Reg) : Statement (.add8 rd rs1 rs2) := by
  intro p h; cases h; exact full_append _ _ (by decide)
theorem radd8 (rd rs1 rs2 : Reg) : Statement (.radd8 rd rs1 rs2) := by
  intro p h; cases h; exact full_append _ _ (by decide)
theorem uradd8 (rd rs1 rs2 : Reg) : Statement (.uradd8 rd rs1 rs2) := by
  intro p h; cases h; exact full_append _ _ (by decide)
theorem kadd8 (rd rs1 rs2 : Reg) : Statement (.kadd8 rd rs1 rs2) := by
  intro p h; cases h; exact full_append _ _ (by decide)
theorem ukadd8 (rd rs1 rs2 : Reg) : Statement (.ukadd8 rd rs1 rs2) := by
  intro p h; cases h; exact full_append _ _ (by decide)
theorem sub8 (rd rs1 rs2 : Reg) : Statement (.sub8 rd rs1 rs2) := by
  intro p h; cases h; exact full_append _ _ (by decide)
theorem rsub8 (rd rs1 rs2 : Reg) : Statement (.rsub8 rd rs1 rs2) := by
  intro p h; cases h; exact full_append _ _ (by decide)
theorem ursub8 (rd rs1 rs2 : Reg) : Statement (.ursub8 rd rs1 rs2) := by
  intro p h; cases h; exact full_append _ _ (by decide)
theorem ksub8 (rd rs1 rs2 : Reg) : Statement (.ksub8 rd rs1 rs2) := by
  intro p h; cases h; exact full_append _ _ (by decide)
theorem uksub8 (rd rs1 rs2 : Reg) : Statement (.uksub8 rd rs1 rs2) := by
  intro p h; cases h; exact full_append _ _ (by decide)
theorem cras16 (rd rs1 rs2 : Reg) : Statement (.cras16 rd rs1 rs2) := by
  intro p h; cases h; exact full_append _ _ (by decide)
theorem rcras16 (rd rs1 rs2 : Reg) : Statement (.rcras16 rd rs1 rs2) := by
  intro p h; cases h; exact full_append _ _ (by decide)
theorem urcras16 (rd rs1 rs2 : Reg) : Statement (.urcras16 rd rs1 rs2) := by
  intro p h; cases h; exact full_append _ _ (by decide)
theorem kcras16 (rd rs1 rs2 : Reg) : Statement (.kcras16 rd rs1 rs2) := by
  intro p h; cases h; exact full_append _ _ (by decide)
theorem ukcras16 (rd rs1 rs2 : Reg) : Statement (.ukcras16 rd rs1 rs2) := by
  intro p h; cases h; exact full_append _ _ (by decide)
theorem crsa16 (rd rs1 rs2 : Reg) : Statement (.crsa16 rd rs1 rs2) := by
  intro p h; cases h; exact full_append _ _ (by decide)
theorem rcrsa16 (rd rs1 rs2 : Reg) : Statement (.rcrsa16 rd rs1 rs2) := by
  intro p h; cases h; exact full_append _ _ (by decide)
theorem urcrsa16 (rd rs1 rs2 : Reg) : Statement (.urcrsa16 rd rs1 rs2) := by
  intro p h; cases h; exact full_append _ _ (by decide)
theorem kcrsa16 (rd rs1 rs2 : Reg) : Statement (.kcrsa16 rd rs1 rs2) := by
  intro p h; cases h; exact full_append _ _ (by decide)
theorem ukcrsa16 (rd rs1 rs2 : Reg) : Statement (.ukcrsa16 rd rs1 rs2) := by
  intro p h; cases h; exact full_append _ _ (by decide)
theorem sra16 (rd rs1 rs2 : Reg) : Statement (.sra16 rd rs1 rs2) := by
  intro p h; cases h; exact full_append _ _ (by decide)
theorem sra16U (rd rs1 rs2 : Reg) : Statement (.sra16U rd rs1 rs2) := by
  intro p h; cases h; exact full_append _ _ (by decide)
theorem srl16 (rd rs1 rs2 : Reg) : Statement (.srl16 rd rs1 rs2) := by
  intro p h; cases h; exact full_append _ _ (by decide)
theorem srl16U (rd rs1 rs2 : Reg) : Statement (.srl16U rd rs1 rs2) := by
  intro p h; cases h; exact full_append _ _ (by decide)
theorem sll16 (rd rs1 rs2 : Reg) : Statement (.sll16 rd rs1 rs2) := by
  intro p h; cases h; exact full_append _ _ (by decide)
theorem ksll16 (rd rs1 rs2 : Reg) : Statement (.ksll16 rd rs1 rs2) := by
  intro p h; cases h; exact full_append _ _ (by decide)
theorem srai16 (rd rs1 : Reg) (imm4u : BitVec 4) : Statement (.srai16 rd rs1 imm4u) := by
  intro p h; cases h; exact full_append _ _ (by decide)
theorem srai16U (rd rs1 : Reg) (imm4u : BitVec 4) : Statement (.srai16U rd rs1 imm4u) := by
  intro p h; cases h; exact full_append _ _ (by decide)
theorem srli16 (rd rs1 : Reg) (imm4u : BitVec 4) : Statement (.srli16 rd rs1 imm4u) := by
  intro p h; cases h; exact full_append _ _ (by decide)
theorem srli16U (rd rs1 : Reg) (imm4u : BitVec 4) : Statement (.srli16U rd rs1 imm4u) := by
  intro p h; cases h; exact full_append _ _ (by decide)
theorem slli16 (rd rs1 : Reg) (imm4u : BitVec 4) : Statement (.slli16 rd rs1 imm4u) := by
  intro p h; cases h; exact full_append _ _ (by decide)
theorem kslli16 (rd rs1 : Reg) (imm4u : BitVec 4) : Statement (.kslli16 rd rs1 imm4u) := by
  intro p h; cases h; exact full_append _ _ (by decide)
theorem kslra16 (rd rs1 rs2 : Reg) : Statement (.kslra16 rd rs1 rs2) := by
  intro p h; cases h; exact full_append _ _ (by decide)
theorem kslra16U (rd rs1 rs2 : Reg) : Statement (.kslra16U rd rs1 rs2) := by
  intro p h; cases h; exact full_append _ _ (by decide)
theorem cmpeq16 (rd rs1 rs2 : Reg) : Statement (.cmpeq16 rd rs1 rs2) := by
  intro p h; cases h; exact full_append _ _ (by decide)
theorem scmplt16 (rd rs1 rs2 : Reg) : Statement (.scmplt16 rd rs1 rs2) := by
  intro p h; cases h; exact full_append _ _ (by decide)
theorem scmple16 (rd rs1 rs2 : Reg) : Statement (.scmple16 rd rs1 rs2) := by
  intro p h; cases h; exact full_append _ _ (by decide)
theorem ucmplt16 (rd rs1 rs2 : Reg) : Statement (.ucmplt16 rd rs1 rs2) := by
  intro p h; cases h; exact full_append _ _ (by decide)
theorem ucmple16 (rd rs1 rs2 : Reg) : Statement (.ucmple16 rd rs1 rs2) := by
  intro p h; cases h; exact full_append _ _ (by decide)
theorem cmpeq8 (rd rs1 rs2 : Reg) : Statement (.cmpeq8 rd rs1 rs2) := by
  intro p h; cases h; exact full_append _ _ (by decide)
theorem scmplt8 (rd rs1 rs2 : Reg) : Statement (.scmplt8 rd rs1 rs2) := by
  intro p h; cases h; exact full_append _ _ (by decide)
theorem scmple8 (rd rs1 rs2 : Reg) : Statement (.scmple8 rd rs1 rs2) := by
  intro p h; cases h; exact full_append _ _ (by decide)
theorem ucmplt8 (rd rs1 rs2 : Reg) : Statement (.ucmplt8 rd rs1 rs2) := by
  intro p h; cases h; exact full_append _ _ (by decide)
theorem ucmple8 (rd rs1 rs2 : Reg) : Statement (.ucmple8 rd rs1 rs2) := by
  intro p h; cases h; exact full_append _ _ (by decide)
theorem khm16 (rd rs1 rs2 : Reg) : Statement (.khm16 rd rs1 rs2) := by
  intro p h; cases h; exact full_append _ _ (by decide)
theorem khmx16 (rd rs1 rs2 : Reg) : Statement (.khmx16 rd rs1 rs2) := by
  intro p h; cases h; exact full_append _ _ (by decide)
theorem khm8 (rd rs1 rs2 : Reg) : Statement (.khm8 rd rs1 rs2) := by
  intro p h; cases h; exact full_append _ _ (by decide)
theorem khmx8 (rd rs1 rs2 : Reg) : Statement (.khmx8 rd rs1 rs2) := by
  intro p h; cases h; exact full_append _ _ (by decide)
theorem smin16 (rd rs1 rs2 : Reg) : Statement (.smin16 rd rs1 rs2) := by
  intro p h; cases h; exact full_append _ _ (by decide)
theorem umin16 (rd rs1 rs2 : Reg) : Statement (.umin16 rd rs1 rs2) := by
  intro p h; cases h; exact full_append _ _ (by decide)
theorem smax16 (rd rs1 rs2 : Reg) : Statement (.smax16 rd rs1 rs2) := by
  intro p h; cases h; exact full_append _ _ (by decide)
theorem umax16 (rd rs1 rs2 : Reg) : Statement (.umax16 rd rs1 rs2) := by
  intro p h; cases h; exact full_append _ _ (by decide)
theorem smin8 (rd rs1 rs2 : Reg) : Statement (.smin8 rd rs1 rs2) := by
  intro p h; cases h; exact full_append _ _ (by decide)
theorem umin8 (rd rs1 rs2 : Reg) : Statement (.umin8 rd rs1 rs2) := by
  intro p h; cases h; exact full_append _ _ (by decide)
theorem smax8 (rd rs1 rs2 : Reg) : Statement (.smax8 rd rs1 rs2) := by
  intro p h; cases h; exact full_append _ _ (by decide)
theorem umax8 (rd rs1 rs2 : Reg) : Statement (.umax8 rd rs1 rs2) := by
  intro p h; cases h; exact full_append _ _ (by decide)
theorem sclip16 (rd rs1 : Reg) (imm4u : BitVec 4) : Statement (.sclip16 rd rs1 imm4u) := by
  intro p h; cases h; exact full_append _ _ (by decide)
theorem uclip16 (rd rs1 : Reg) (imm4u : BitVec 4) : Statement (.uclip16 rd rs1 imm4u) := by
  intro p h; cases h; exact full_append _ _ (by decide)
theorem kabs16 (rd rs1 : Reg) : Statement (.kabs16 rd rs1) := by
  intro p h; cases h; exact full_append _ _ (by decide)
theorem kabs8 (rd rs1 : Reg) : Statement (.kabs8 rd rs1) := by
  intro p h; cases h; exact full_append _ _ (by decide)
theorem execIt (index : BitVec 16) : Statement (.execIt index) := by
  intro p h; cases h
theorem lmw (rb : Reg) (first last : BitVec 5) (form : LsmForm) (paired : Bool) :
    Statement (.lmw rb first last form paired) := by
  intro p h; cases h
theorem smw (rb : Reg) (first last : BitVec 5) (form : LsmForm) (paired : Bool) :
    Statement (.smw rb first last form paired) := by
  intro p h; cases h

end Sys2Proof.Laws.LengthMark
end

