-- ==== Sys2Proof/Laws/Step.lean ====
section
/-! SUPPORT. What one step can do: the hart it steps, what is fetched and decoded, and the refusal it records. -/

namespace Sys2Proof.Machine

/-- A step that answers a next state: the run is not over, the scheduler gives a hart, and that hart's fetch and instruction
answer the state, or a refusal that the state records. -/
theorem step_next {s t : State} (h : step s = .next t) :
    s.refusedMark = none ∧ s.exited = false ∧
      ∃ u, s.pick = some u ∧
        (u.fetchRun exec = .next t ∨ ∃ r, u.fetchRun exec = .refused r ∧ t = u.refuse r) := by
  unfold step State.stepWith at h
  split at h
  · cases h
  · rename_i hm
    split at h
    · cases h
    · rename_i he
      split at h
      · rename_i u hu
        refine ⟨hm, by simpa using he, u, hu, ?_⟩
        cases hf : u.fetchRun exec with
        | next v => rw [hf] at h; left; exact h
        | fault f => rw [hf] at h; cases h
        | refused r => rw [hf] at h; right; cases h; exact ⟨r, rfl, rfl⟩
      · cases h

/-- The step of a state whose run is not over, by the hart the scheduler gives. -/
theorem step_of_pick {s u : State} (hm : s.refusedMark = none) (he : s.exited = false) (hu : s.pick = some u) :
    step s = u.recording (u.fetchRun exec) := by
  simp [step, State.stepWith, hm, he, hu]

/-- What a fetch can end in: stuck, the instruction of the decoded parcel, a rejected parcel, an odd pc. -/
theorem fetchRun_cases (s : State) (run : Instr → State → Result) :
    s.fetchRun run = .refused .oddPc ∨ s.fetchRun run = .next s.stuck ∨
      (∃ p i, decode s.params.xlen s.params.openRows p = .ok i ∧ s.fetchRun run = run i s) ∨
      ∃ p r, decode s.params.xlen s.params.openRows p = .error r ∧ s.fetchRun run = s.rejected r := by
  have key : ∀ p, (∃ q i, decode s.params.xlen s.params.openRows q = .ok i ∧ s.decodeRun run p = run i s) ∨
      ∃ q r, decode s.params.xlen s.params.openRows q = .error r ∧ s.decodeRun run p = s.rejected r := by
    intro p
    unfold State.decodeRun
    split
    · exact .inl ⟨p, _, ‹_›, rfl⟩
    · exact .inr ⟨p, _, ‹_›, rfl⟩
  unfold State.fetchRun
  dsimp only
  split
  · exact .inl rfl
  · split
    · exact .inr (.inl rfl)
    · split
      · exact .inr (.inr (key _))
      · split
        · exact .inr (.inl rfl)
        · exact .inr (.inr (key _))

theorem rejected_keeps {may : May} (s : State) (x : Reject) : OnNext (Keeps may s) (s.rejected x) := by
  cases x <;> first | exact Keeps.rfl.halt _ | trivial

/-- The refused mark is no part of the invariant. -/
theorem State.Inv.refuse {s : State} (h : s.Inv) (r : Refusal) : (s.refuse r).Inv :=
  ⟨h.memWf, h.memInside, h.resvWf, h.resvInside, h.hart, h.parked⟩

/-- With the table-execute flag clear, what is clean is sound. -/
theorem State.Clean.toInv {s : State} (h : s.Clean) (hte : s.hart.te = false) : s.Inv := by
  obtain ⟨⟨a, b, c, d, ⟨e1, e2, _, e4, e5, e6, e7, e8, e9, e10, e11, e12, e13, e14⟩, f⟩⟩ := h
  exact ⟨a, b, c, d, ⟨e1, e2, hte, e4, e5, e6, e7, e8, e9, e10, e11, e12, e13, e14⟩, f⟩

theorem State.Inv.toClean {s : State} (h : s.Inv) : s.Clean := by
  obtain ⟨a, b, c, d, ⟨e1, e2, _, e4, e5, e6, e7, e8, e9, e10, e11, e12, e13, e14⟩, f⟩ := h
  exact ⟨a, b, c, d, ⟨e1, e2, rfl, e4, e5, e6, e7, e8, e9, e10, e11, e12, e13, e14⟩, f⟩

/-- Two harts that change places are as sound as before. -/
theorem State.Inv.switchTo {s : State} (h : s.Inv) (k : Nat) : (s.switchTo k).Inv := by
  cases k with
  | zero => exact h
  | succ k =>
    simp only [State.switchTo]
    split
    · rename_i q hq
      obtain ⟨a, b, c, d, e, f⟩ := h
      refine ⟨a, b, c, d, f q (List.mem_of_getElem? hq), fun p hp => ?_⟩
      rcases List.mem_or_eq_of_mem_set hp with hp | hp
      · exact f p hp
      · exact hp ▸ e
    · exact h

/-- The state the scheduler gives is sound and its table-execute flag clear. -/
theorem State.Inv.pick {s u : State} (h : s.Inv) (hu : s.pick = some u) : u.Inv := by
  unfold State.pick at hu
  split at hu
  · cases hu
  · cases hu
    have hs : ({ s with schedule := s.schedule.tail } : State).Inv :=
      ⟨h.memWf, h.memInside, h.resvWf, h.resvInside, h.hart, h.parked⟩
    exact (hs.switchTo _).toClean.inv

end Sys2Proof.Machine
end

