-- ==== Sys2Proof/Tests/Slice0.lean ====
section
/-! SUPPORT. The tests. Expected results come from the spec: the vectors of spec/95_test_vectors.md are named by their number;
the words of the decode tests are put together from spec/opcode_table.json and the field places of spec/30_encoding.md and
spec/42_compressed.md, apart from the decoder and the encoder. The witnesses show states and operands that meet the
hypotheses of the statements, at the ends of their ranges. -/

namespace Sys2Proof.Tests

open Sys2Proof Sys2Proof.Machine

set_option maxRecDepth 10000
set_option Elab.async false

noncomputable section

/-! ## Small states -/

/-- A launched machine of an XLEN with some registers given. -/
def start (x : Xlen) (regs : List (Reg × Word) := []) : State :=
  regs.foldl (fun s p => s.writeX p.1 p.2) { State.reset with params := { Params.reset with xlen := x } }

/-- The same at another pc. -/
def atPc (s : State) (pc : Word) : State := s.setPc pc

/-- The same with bytes in memory. -/
def withBytes (s : State) (a : Word) (bytes : List Byte) : State := { s with mem := s.mem.place a bytes }

/-- The same under REDUCED_ABI. -/
def reduced (s : State) : State := { s with params := { s.params with reducedAbi := true } }

/-- The same with OV set. -/
def overflowed (s : State) : State := s.setHart { s.hart with ucode := 1 }

/-- The same with a rounding mode in frm. -/
def withFrm (s : State) (m : BitVec 3) : State := s.setHart { s.hart with frm := m }

/-- The same with a value in the low 64 bits of a floating-point register. -/
def withF (s : State) (r : Reg) (v : Word) : State := s.setFLow r v

/-- The same with an address reserved. -/
def reserving (s : State) (a : Nat) : State := s.reserve a

/-- Every request of this intent refused. -/
def refusing (s : State) (intent : Intent) : State :=
  { s with params := { s.params with refusals := [1, 2, 4, 8].map fun size => ⟨0, 2 ^ 64 - 1, size, intent⟩ } }

/-- The same inside an exec.it. -/
def inTable (s : State) : State := s.setTe true

/-- A load/store-multiple table: T[0] is x5, T[1] is x6, T[2] is x0, every other entry x7. -/
def table : Vector Reg 32 := (((Vector.replicate 32 (7 : Reg)).set 0 5).set 1 6).set 2 0

/-- The same with the OPEN encodings and the table supplied: 0x8000 is exec.it 1, 0x0000000B and 0x8002 are lmw x10, 0, 1. -/
def supplied (s : State) : State :=
  { s with
    params :=
      { s.params with
        openRows := [.half 0x8000 (.execIt 1), .full 0x0000000B (.lmw 10 0 1 .postAscending false),
          .half 0x8002 (.lmw 10 0 1 .postAscending false)]
        lsmTable := some table } }

/-- One step with a word placed at the pc. -/
def run (s : State) (word : Nat) : Result := step (s.withFetchWord 32 word)

/-- The outcome is a next state with a property. -/
def ends (r : Result) (p : State → Bool) : Bool :=
  match r with
  | .next t => p t
  | _ => false

/-- The outcome is this refusal. -/
def refuses (r : Result) (why : Refusal) : Bool :=
  match r with
  | .refused w => w == why
  | _ => false

/-- The step is refused: its next state records this reason. -/
def records (r : Result) (why : Refusal) : Bool := ends r fun t => t.refusedMark == some why

/-- x[r] is v and the pc is the next of a 32-bit instruction at 0x100. -/
def gives (r : Result) (q : Reg) (v : Word) : Bool := ends r fun t => t.readX 64 q == v && t.hart.pc == 0x104

/-- The same with OV. -/
def givesOv (r : Result) (q : Reg) (v : Word) (ov : Word) : Bool :=
  ends r fun t => t.readX 64 q == v && t.hart.pc == 0x104 && t.hart.ucode == ov

/-- The hart is halted at its pc. -/
def haltsAt (r : Result) (reason : HaltReason) (pc : Word) : Bool :=
  ends r fun t => t.hart.status == .halted reason pc && t.hart.pc == pc

/-- The words decode to the instructions. -/
def decodes (x : Xlen) (l : List (Parcel × Instr)) : Bool :=
  l.all fun p => match decode x [] p.1 with
    | .ok i => i == p.2 && i.wellFormed && i.existsOn x && encode i == some p.1
    | .error _ => false

/-- The word is rejected for this reason. -/
def rejects (x : Xlen) (p : Parcel) (why : Reject) : Bool :=
  match decode x [] p with
  | .ok _ => false
  | .error r => r == why

/-! ## Ill-formed terms: one for each predicate of spec/30_encoding.md R45 -/

theorem test_illFormed_cAddi4spn_zero : Instr.wellFormed (.cAddi4spn 7 0) = false := by decide
theorem test_illFormed_cAddi_x0 : Instr.wellFormed (.cAddi 0 1) = false := by decide
theorem test_illFormed_cAddiw_x0 : Instr.wellFormed (.cAddiw 0 1) = false := by decide
theorem test_illFormed_cLi_x0 : Instr.wellFormed (.cLi 0 1) = false := by decide
theorem test_illFormed_cAddi16sp_zero : Instr.wellFormed (.cAddi16sp 0) = false := by decide
theorem test_illFormed_cLui_x0 : Instr.wellFormed (.cLui 0 1) = false := by decide
theorem test_illFormed_cLui_x2 : Instr.wellFormed (.cLui 2 1) = false := by decide
theorem test_illFormed_cLui_zero : Instr.wellFormed (.cLui 3 0) = false := by decide
theorem test_illFormed_cSlli_x0 : Instr.wellFormed (.cSlli 0 1) = false := by decide
theorem test_illFormed_cLwsp_x0 : Instr.wellFormed (.cLwsp 0 1) = false := by decide
theorem test_illFormed_cLdsp_x0 : Instr.wellFormed (.cLdsp 0 1) = false := by decide
theorem test_illFormed_cJr_x0 : Instr.wellFormed (.cJr 0) = false := by decide
theorem test_illFormed_cMv_x0 : Instr.wellFormed (.cMv 0 1) = false := by decide
theorem test_illFormed_cMv_from_x0 : Instr.wellFormed (.cMv 1 0) = false := by decide
theorem test_illFormed_cJalr_x0 : Instr.wellFormed (.cJalr 0) = false := by decide
theorem test_illFormed_cAdd_x0 : Instr.wellFormed (.cAdd 0 1) = false := by decide
theorem test_illFormed_cAdd_from_x0 : Instr.wellFormed (.cAdd 1 0) = false := by decide

/-! ## Decoding: for every row a word written out from its encoding -/

theorem test_decode_base_rv64_1 :
    decodes .rv64 [
        (.full 0x2CE9B6B7, .lui 13 183963), (.full 0x2CE9B697, .auipc 13 183963),
        (.full 0x537596EF, .jal 13 183963), (.full 0xE9BB06E7, .jalr 13 22 3739),
        (.full 0xD2BB0BE3, .beq 22 11 3739), (.full 0xD2BB1BE3, .bne 22 11 3739),
        (.full 0xD2BB4BE3, .blt 22 11 3739), (.full 0xD2BB5BE3, .bge 22 11 3739),
        (.full 0xD2BB6BE3, .bltu 22 11 3739), (.full 0xD2BB7BE3, .bgeu 22 11 3739),
        (.full 0xE9BB0683, .lb 13 22 3739), (.full 0xE9BB1683, .lh 13 22 3739),
        (.full 0xE9BB2683, .lw 13 22 3739), (.full 0xE9BB4683, .lbu 13 22 3739),
        (.full 0xE9BB5683, .lhu 13 22 3739), (.full 0xE9BB6683, .lwu 13 22 3739),
        (.full 0xE9BB3683, .ld 13 22 3739), (.full 0xE8BB0DA3, .sb 11 22 3739),
        (.full 0xE8BB1DA3, .sh 11 22 3739), (.full 0xE8BB2DA3, .sw 11 22 3739),
        (.full 0xE8BB3DA3, .sd 11 22 3739), (.full 0xE9BB0693, .addi 13 22 3739),
        (.full 0xE9BB2693, .slti 13 22 3739), (.full 0xE9BB3693, .sltiu 13 22 3739)] = true := by decide +kernel
theorem test_decode_base_rv64_2 :
    decodes .rv64 [
        (.full 0xE9BB4693, .xori 13 22 3739), (.full 0xE9BB6693, .ori 13 22 3739),
        (.full 0xE9BB7693, .andi 13 22 3739), (.full 0x01BB1693, .slli 13 22 27),
        (.full 0x01BB5693, .srli 13 22 27), (.full 0x41BB5693, .srai 13 22 27),
        (.full 0x00BB06B3, .add 13 22 11), (.full 0x40BB06B3, .sub 13 22 11), (.full 0x00BB16B3, .sll 13 22 11),
        (.full 0x00BB26B3, .slt 13 22 11), (.full 0x00BB36B3, .sltu 13 22 11),
        (.full 0x00BB46B3, .xor 13 22 11), (.full 0x00BB56B3, .srl 13 22 11), (.full 0x40BB56B3, .sra 13 22 11),
        (.full 0x00BB66B3, .or 13 22 11), (.full 0x00BB76B3, .and 13 22 11),
        (.full 0xE9BB069B, .addiw 13 22 3739), (.full 0x01BB169B, .slliw 13 22 27),
        (.full 0x01BB569B, .srliw 13 22 27), (.full 0x41BB569B, .sraiw 13 22 27),
        (.full 0x00BB06BB, .addw 13 22 11), (.full 0x40BB06BB, .subw 13 22 11),
        (.full 0x00BB16BB, .sllw 13 22 11), (.full 0x00BB56BB, .srlw 13 22 11)] = true := by decide +kernel
theorem test_decode_base_rv64_3 :
    decodes .rv64 [
        (.full 0x40BB56BB, .sraw 13 22 11), (.full 0xBBBB068F, .fence 11 11 11 22 13),
        (.full 0xE9BB168F, .fenceI 13 22 3739), (.full 0x00000073, .ecall), (.full 0x00100073, .ebreak),
        (.full 0xE9BB16F3, .csrrw 13 3739 22), (.full 0xE9BB26F3, .csrrs 13 3739 22),
        (.full 0xE9BB36F3, .csrrc 13 3739 22), (.full 0xE9BDD6F3, .csrrwi 13 3739 27),
        (.full 0xE9BDE6F3, .csrrsi 13 3739 27), (.full 0xE9BDF6F3, .csrrci 13 3739 27)] = true := by decide +kernel
theorem test_decode_compressed_rv64_1 :
    decodes .rv64 [
        (.half 0x14F4, .cAddi4spn 5 155), (.half 0x2DF4, .cFld 5 3 27), (.half 0x55F4, .cLw 5 3 27),
        (.half 0x6DF4, .cLd 5 3 27), (.half 0xADF8, .cFsd 6 3 27), (.half 0xD5F8, .cSw 6 3 27),
        (.half 0xEDF8, .cSd 6 3 27), (.half 0x0001, .cNop), (.half 0x06ED, .cAddi 13 27),
        (.half 0x26ED, .cAddiw 13 27), (.half 0x46ED, .cLi 13 27), (.half 0x615D, .cAddi16sp 27),
        (.half 0x66ED, .cLui 13 27), (.half 0x82ED, .cSrli 5 27), (.half 0x86ED, .cSrai 5 27),
        (.half 0x8AED, .cAndi 5 27), (.half 0x8E99, .cSub 5 6), (.half 0x8EB9, .cXor 5 6),
        (.half 0x8ED9, .cOr 5 6), (.half 0x8EF9, .cAnd 5 6), (.half 0x9E99, .cSubw 5 6),
        (.half 0x9EB9, .cAddw 5 6), (.half 0xBB1D, .cJ 1691), (.half 0xD99D, .cBeqz 3 155)] = true := by decide +kernel
theorem test_decode_compressed_rv64_2 :
    decodes .rv64 [
        (.half 0xF99D, .cBnez 3 155), (.half 0x06EE, .cSlli 13 27), (.half 0x26EE, .cFldsp 13 27),
        (.half 0x56B6, .cLwsp 13 27), (.half 0x66EE, .cLdsp 13 27), (.half 0x8B02, .cJr 22),
        (.half 0x86AE, .cMv 13 11), (.half 0x9002, .cEbreak), (.half 0x9B02, .cJalr 22),
        (.half 0x96AE, .cAdd 13 11), (.half 0xADAE, .cFsdsp 11 27), (.half 0xD6AE, .cSwsp 11 27),
        (.half 0xEDAE, .cSdsp 11 27)] = true := by decide +kernel
theorem test_decode_compressed_rv32 :
    decodes .rv32 [
        (.half 0x75F4, .cFlw 5 3 27), (.half 0xF5F8, .cFsw 6 3 27), (.half 0x3B1D, .cJal 1691),
        (.half 0x76B6, .cFlwsp 13 27), (.half 0xF6AE, .cFswsp 11 27)] = true := by decide +kernel
theorem test_decode_mulDiv_rv64 :
    decodes .rv64 [
        (.full 0x02BB06B3, .mul 13 22 11), (.full 0x02BB16B3, .mulh 13 22 11),
        (.full 0x02BB26B3, .mulhsu 13 22 11), (.full 0x02BB36B3, .mulhu 13 22 11),
        (.full 0x02BB46B3, .div 13 22 11), (.full 0x02BB56B3, .divu 13 22 11),
        (.full 0x02BB66B3, .rem 13 22 11), (.full 0x02BB76B3, .remu 13 22 11),
        (.full 0x02BB06BB, .mulw 13 22 11), (.full 0x02BB46BB, .divw 13 22 11),
        (.full 0x02BB56BB, .divuw 13 22 11), (.full 0x02BB66BB, .remw 13 22 11),
        (.full 0x02BB76BB, .remuw 13 22 11)] = true := by decide +kernel
theorem test_decode_atomic_rv64 :
    decodes .rv64 [
        (.full 0x160B26AF, .lrW 13 22 1 1), (.full 0x1EBB26AF, .scW 13 11 22 1 1),
        (.full 0x0EBB26AF, .amoswapW 13 11 22 1 1), (.full 0x06BB26AF, .amoaddW 13 11 22 1 1),
        (.full 0x26BB26AF, .amoxorW 13 11 22 1 1), (.full 0x66BB26AF, .amoandW 13 11 22 1 1),
        (.full 0x46BB26AF, .amoorW 13 11 22 1 1), (.full 0x86BB26AF, .amominW 13 11 22 1 1),
        (.full 0xA6BB26AF, .amomaxW 13 11 22 1 1), (.full 0xC6BB26AF, .amominuW 13 11 22 1 1),
        (.full 0xE6BB26AF, .amomaxuW 13 11 22 1 1), (.full 0x160B36AF, .lrD 13 22 1 1),
        (.full 0x1EBB36AF, .scD 13 11 22 1 1), (.full 0x0EBB36AF, .amoswapD 13 11 22 1 1),
        (.full 0x06BB36AF, .amoaddD 13 11 22 1 1), (.full 0x26BB36AF, .amoxorD 13 11 22 1 1),
        (.full 0x66BB36AF, .amoandD 13 11 22 1 1), (.full 0x46BB36AF, .amoorD 13 11 22 1 1),
        (.full 0x86BB36AF, .amominD 13 11 22 1 1), (.full 0xA6BB36AF, .amomaxD 13 11 22 1 1),
        (.full 0xC6BB36AF, .amominuD 13 11 22 1 1), (.full 0xE6BB36AF, .amomaxuD 13 11 22 1 1)] = true := by decide +kernel
theorem test_decode_float_rv64_1 :
    decodes .rv64 [
        (.full 0x401B36D3, .fcvtSD 13 22 3), (.full 0x420B36D3, .fcvtDS 13 22 3),
        (.full 0xE9BB2687, .flw 13 22 3739), (.full 0xE8BB2DA7, .fsw 11 22 3739),
        (.full 0xE0BB36C3, .fmaddS 13 22 11 28 3), (.full 0xE0BB36C7, .fmsubS 13 22 11 28 3),
        (.full 0xE0BB36CB, .fnmsubS 13 22 11 28 3), (.full 0xE0BB36CF, .fnmaddS 13 22 11 28 3),
        (.full 0x00BB36D3, .faddS 13 22 11 3), (.full 0x08BB36D3, .fsubS 13 22 11 3),
        (.full 0x10BB36D3, .fmulS 13 22 11 3), (.full 0x18BB36D3, .fdivS 13 22 11 3),
        (.full 0x580B36D3, .fsqrtS 13 22 3), (.full 0x20BB06D3, .fsgnjS 13 22 11),
        (.full 0x20BB16D3, .fsgnjnS 13 22 11), (.full 0x20BB26D3, .fsgnjxS 13 22 11),
        (.full 0x28BB06D3, .fminS 13 22 11), (.full 0x28BB16D3, .fmaxS 13 22 11),
        (.full 0xA0BB26D3, .feqS 13 22 11), (.full 0xA0BB16D3, .fltS 13 22 11),
        (.full 0xA0BB06D3, .fleS 13 22 11), (.full 0xE00B16D3, .fclassS 13 22),
        (.full 0xC00B36D3, .fcvtWS 13 22 3), (.full 0xD00B36D3, .fcvtSW 13 22 3)] = true := by decide +kernel
theorem test_decode_float_rv64_2 :
    decodes .rv64 [
        (.full 0xC01B36D3, .fcvtWuS 13 22 3), (.full 0xD01B36D3, .fcvtSWu 13 22 3),
        (.full 0xC02B36D3, .fcvtLS 13 22 3), (.full 0xD02B36D3, .fcvtSL 13 22 3),
        (.full 0xC03B36D3, .fcvtLuS 13 22 3), (.full 0xD03B36D3, .fcvtSLu 13 22 3),
        (.full 0xE00B06D3, .fmvXW 13 22), (.full 0xF00B06D3, .fmvWX 13 22), (.full 0xE9BB3687, .fld 13 22 3739),
        (.full 0xE8BB3DA7, .fsd 11 22 3739), (.full 0xE2BB36C3, .fmaddD 13 22 11 28 3),
        (.full 0xE2BB36C7, .fmsubD 13 22 11 28 3), (.full 0xE2BB36CB, .fnmsubD 13 22 11 28 3),
        (.full 0xE2BB36CF, .fnmaddD 13 22 11 28 3), (.full 0x02BB36D3, .faddD 13 22 11 3),
        (.full 0x0ABB36D3, .fsubD 13 22 11 3), (.full 0x12BB36D3, .fmulD 13 22 11 3),
        (.full 0x1ABB36D3, .fdivD 13 22 11 3), (.full 0x5A0B36D3, .fsqrtD 13 22 3),
        (.full 0x22BB06D3, .fsgnjD 13 22 11), (.full 0x22BB16D3, .fsgnjnD 13 22 11),
        (.full 0x22BB26D3, .fsgnjxD 13 22 11), (.full 0x2ABB06D3, .fminD 13 22 11),
        (.full 0x2ABB16D3, .fmaxD 13 22 11)] = true := by decide +kernel
theorem test_decode_float_rv64_3 :
    decodes .rv64 [
        (.full 0xA2BB26D3, .feqD 13 22 11), (.full 0xA2BB16D3, .fltD 13 22 11),
        (.full 0xA2BB06D3, .fleD 13 22 11), (.full 0xE20B16D3, .fclassD 13 22),
        (.full 0xC20B36D3, .fcvtWD 13 22 3), (.full 0xD20B36D3, .fcvtDW 13 22 3),
        (.full 0xC21B36D3, .fcvtWuD 13 22 3), (.full 0xD21B36D3, .fcvtDWu 13 22 3),
        (.full 0xC22B36D3, .fcvtLD 13 22 3), (.full 0xD22B36D3, .fcvtDL 13 22 3),
        (.full 0xC23B36D3, .fcvtLuD 13 22 3), (.full 0xD23B36D3, .fcvtDLu 13 22 3),
        (.full 0xE20B06D3, .fmvXD 13 22), (.full 0xF20B06D3, .fmvDX 13 22)] = true := by decide +kernel
theorem test_decode_half_rv64_1 :
    decodes .rv64 [
        (.full 0x402B36D3, .fcvtSH 13 22 3), (.full 0x440B36D3, .fcvtHS 13 22 3),
        (.full 0x422B36D3, .fcvtDH 13 22 3), (.full 0x441B36D3, .fcvtHD 13 22 3),
        (.full 0xE9BB1687, .flh 13 22 3739), (.full 0xE8BB1DA7, .fsh 11 22 3739),
        (.full 0xE4BB36C3, .fmaddH 13 22 11 28 3), (.full 0xE4BB36C7, .fmsubH 13 22 11 28 3),
        (.full 0xE4BB36CB, .fnmsubH 13 22 11 28 3), (.full 0xE4BB36CF, .fnmaddH 13 22 11 28 3),
        (.full 0x04BB36D3, .faddH 13 22 11 3), (.full 0x0CBB36D3, .fsubH 13 22 11 3),
        (.full 0x14BB36D3, .fmulH 13 22 11 3), (.full 0x1CBB36D3, .fdivH 13 22 11 3),
        (.full 0x5C0B36D3, .fsqrtH 13 22 3), (.full 0x24BB06D3, .fsgnjH 13 22 11),
        (.full 0x24BB16D3, .fsgnjnH 13 22 11), (.full 0x24BB26D3, .fsgnjxH 13 22 11),
        (.full 0x2CBB06D3, .fminH 13 22 11), (.full 0x2CBB16D3, .fmaxH 13 22 11),
        (.full 0xA4BB26D3, .feqH 13 22 11), (.full 0xA4BB16D3, .fltH 13 22 11),
        (.full 0xA4BB06D3, .fleH 13 22 11), (.full 0xE40B16D3, .fclassH 13 22)] = true := by decide +kernel
theorem test_decode_half_rv64_2 :
    decodes .rv64 [
        (.full 0xC40B36D3, .fcvtWH 13 22 3), (.full 0xD40B36D3, .fcvtHW 13 22 3),
        (.full 0xC41B36D3, .fcvtWuH 13 22 3), (.full 0xD41B36D3, .fcvtHWu 13 22 3),
        (.full 0xC42B36D3, .fcvtLH 13 22 3), (.full 0xD42B36D3, .fcvtHL 13 22 3),
        (.full 0xC43B36D3, .fcvtLuH 13 22 3), (.full 0xD43B36D3, .fcvtHLu 13 22 3),
        (.full 0xE40B06D3, .fmvXH 13 22), (.full 0xF40B06D3, .fmvHX 13 22)] = true := by decide +kernel
theorem test_decode_packed_rv64_1 :
    decodes .rv64 [
        (.full 0x40BB06F7, .add16 13 22 11), (.full 0x00BB06F7, .radd16 13 22 11),
        (.full 0x20BB06F7, .uradd16 13 22 11), (.full 0x10BB06F7, .kadd16 13 22 11),
        (.full 0x30BB06F7, .ukadd16 13 22 11), (.full 0x42BB06F7, .sub16 13 22 11),
        (.full 0x02BB06F7, .rsub16 13 22 11), (.full 0x22BB06F7, .ursub16 13 22 11),
        (.full 0x12BB06F7, .ksub16 13 22 11), (.full 0x32BB06F7, .uksub16 13 22 11),
        (.full 0x48BB06F7, .add8 13 22 11), (.full 0x08BB06F7, .radd8 13 22 11),
        (.full 0x28BB06F7, .uradd8 13 22 11), (.full 0x18BB06F7, .kadd8 13 22 11),
        (.full 0x38BB06F7, .ukadd8 13 22 11), (.full 0x4ABB06F7, .sub8 13 22 11),
        (.full 0x0ABB06F7, .rsub8 13 22 11), (.full 0x2ABB06F7, .ursub8 13 22 11),
        (.full 0x1ABB06F7, .ksub8 13 22 11), (.full 0x3ABB06F7, .uksub8 13 22 11),
        (.full 0x44BB06F7, .cras16 13 22 11), (.full 0x04BB06F7, .rcras16 13 22 11),
        (.full 0x24BB06F7, .urcras16 13 22 11), (.full 0x14BB06F7, .kcras16 13 22 11)] = true := by decide +kernel
theorem test_decode_packed_rv64_2 :
    decodes .rv64 [
        (.full 0x34BB06F7, .ukcras16 13 22 11), (.full 0x46BB06F7, .crsa16 13 22 11),
        (.full 0x06BB06F7, .rcrsa16 13 22 11), (.full 0x26BB06F7, .urcrsa16 13 22 11),
        (.full 0x16BB06F7, .kcrsa16 13 22 11), (.full 0x36BB06F7, .ukcrsa16 13 22 11),
        (.full 0x50BB06F7, .sra16 13 22 11), (.full 0x60BB06F7, .sra16U 13 22 11),
        (.full 0x52BB06F7, .srl16 13 22 11), (.full 0x62BB06F7, .srl16U 13 22 11),
        (.full 0x54BB06F7, .sll16 13 22 11), (.full 0x64BB06F7, .ksll16 13 22 11),
        (.full 0x70BB06F7, .srai16 13 22 11), (.full 0x71BB06F7, .srai16U 13 22 11),
        (.full 0x72BB06F7, .srli16 13 22 11), (.full 0x73BB06F7, .srli16U 13 22 11),
        (.full 0x74BB06F7, .slli16 13 22 11), (.full 0x75BB06F7, .kslli16 13 22 11),
        (.full 0x56BB06F7, .kslra16 13 22 11), (.full 0x66BB06F7, .kslra16U 13 22 11),
        (.full 0x4CBB06F7, .cmpeq16 13 22 11), (.full 0x0CBB06F7, .scmplt16 13 22 11),
        (.full 0x1CBB06F7, .scmple16 13 22 11), (.full 0x2CBB06F7, .ucmplt16 13 22 11)] = true := by decide +kernel
theorem test_decode_packed_rv64_3 :
    decodes .rv64 [
        (.full 0x3CBB06F7, .ucmple16 13 22 11), (.full 0x4EBB06F7, .cmpeq8 13 22 11),
        (.full 0x0EBB06F7, .scmplt8 13 22 11), (.full 0x1EBB06F7, .scmple8 13 22 11),
        (.full 0x2EBB06F7, .ucmplt8 13 22 11), (.full 0x3EBB06F7, .ucmple8 13 22 11),
        (.full 0x86BB06F7, .khm16 13 22 11), (.full 0x96BB06F7, .khmx16 13 22 11),
        (.full 0x8EBB06F7, .khm8 13 22 11), (.full 0x9EBB06F7, .khmx8 13 22 11),
        (.full 0x80BB06F7, .smin16 13 22 11), (.full 0x90BB06F7, .umin16 13 22 11),
        (.full 0x82BB06F7, .smax16 13 22 11), (.full 0x92BB06F7, .umax16 13 22 11),
        (.full 0x88BB06F7, .smin8 13 22 11), (.full 0x98BB06F7, .umin8 13 22 11),
        (.full 0x8ABB06F7, .smax8 13 22 11), (.full 0x9ABB06F7, .umax8 13 22 11),
        (.full 0x84BB06F7, .sclip16 13 22 11), (.full 0x85BB06F7, .uclip16 13 22 11),
        (.full 0xAD1B06F7, .kabs16 13 22), (.full 0xAD0B06F7, .kabs8 13 22)] = true := by decide +kernel

/-- The five OPEN rows decode from the words a supplied encoding gives them (spec/00_scope.md R5). -/
theorem test_decode_open :
    decode .rv64 [.half 0x8000 (.execIt 9)] (.half 0x8000) = .ok (.execIt 9) ∧
    decode .rv64 [.half 0x8002 (.lmw 1 2 3 .preDescending true)] (.half 0x8002) =
      .ok (.lmw 1 2 3 ⟨.preDescending, .half⟩ true) ∧
    decode .rv64 [.half 0x8002 (.smw 1 2 3 .preDescending true)] (.half 0x8002) =
      .ok (.smw 1 2 3 ⟨.preDescending, .half⟩ true) ∧
    decode .rv64 [.full 0x0B (.lmw 1 2 3 .preDescending true)] (.full 0x0B) = .ok (.lmw 1 2 3 ⟨.preDescending, .full⟩ true) ∧
    decode .rv64 [.full 0x2B (.smw 1 2 3 .postDescending false)] (.full 0x2B) = .ok (.smw 1 2 3 ⟨.postDescending, .full⟩ false) ∧
    decode .rv64 [.full 0x5B (.fcvtSBf16 1 2)] (.full 0x5B) = .ok (.fcvtSBf16 1 2) ∧
    decode .rv64 [.full 0x7B (.fcvtBf16S 1 2)] (.full 0x7B) = .ok (.fcvtBf16S 1 2) := ⟨rfl, rfl, rfl, rfl, rfl, rfl, rfl⟩

/-! Words that decode to nothing, by the reason: V-C8, V-C9, V-C10, V-D1 to V-D5, V-P27. -/

theorem test_VC8 : rejects .rv32 (.half 0x0000) .illegal = true := by decide +kernel
theorem test_VC9 : rejects .rv32 (.half 0x6101) .unmatchedHalf = true := by decide +kernel
theorem test_VC10 : rejects .rv32 (.half 0x9C01) .illegal = true := by decide +kernel
theorem test_VD1 : rejects .rv32 (.full 0x30200073) .illegal = true := by decide +kernel
theorem test_VD2 : rejects .rv32 (.full 0x0000000B) .customSpace = true := by decide +kernel
theorem test_VD3 : rejects .rv32 (.full 0x0000001F) .illegal = true := by decide +kernel
theorem test_VD4 : rejects .rv32 (.full 0x06000053) .illegal = true := by decide +kernel
theorem test_VD5 : rejects .rv32 (.full 0x0220C1BB) .illegal = true := by decide +kernel
theorem test_VP27 : rejects .rv32 (.full 0xFE000077) .packedSpace = true := by decide +kernel

theorem test_decodeTableWord : decodeTableWord 32 0x002081B3 = some (.add 3 1 2) ∧
    decodeTableWord 16 0x0800 = some (.cAddi4spn 0 4) :=
  ⟨rfl, rfl⟩

/-! ## Steps: the vectors of spec/95_test_vectors.md -/

theorem test_S1 : gives (run (start .rv32 [(1, 5), (2, 3)]) 0x002081B3) 3 8 = true := by decide +kernel
theorem test_S2 :
    gives (run (start .rv64 [(1, 0xFFFFFFFF80000000), (2, 0xFFFFFFFFFFFFFFFF)]) 0x0220C1BB) 3 0xFFFFFFFF80000000 = true :=
  by decide +kernel
theorem test_VI1 : gives (run (start .rv32 [(1, 0), (2, 1)]) 0x402081B3) 3 0xFFFFFFFF = true := by decide +kernel
theorem test_VI2 : gives (run (start .rv32 [(1, 0xFFFFFFFF), (2, 1)]) 0x0020A1B3) 3 1 = true := by decide +kernel
theorem test_VI3 : gives (run (start .rv32 [(1, 0xFFFFFFFF), (2, 1)]) 0x0020B1B3) 3 0 = true := by decide +kernel
theorem test_VI4 : gives (run (start .rv64 [(1, 1), (2, 65)]) 0x002091B3) 3 2 = true := by decide +kernel
theorem test_VI5 :
    gives (run (start .rv64 [(1, 0x8000000000000000), (2, 63)]) 0x4020D1B3) 3 0xFFFFFFFFFFFFFFFF = true := by decide +kernel
theorem test_VI6 : gives (run (start .rv64 [(1, 1), (2, 32)]) 0x002091BB) 3 1 = true := by decide +kernel
theorem test_VI7 :
    gives (run (start .rv64 [(1, 0x80000000), (2, 31)]) 0x4020D1BB) 3 0xFFFFFFFFFFFFFFFF = true := by decide +kernel
theorem test_VI8 : gives (run (start .rv64) 0x800002B7) 5 0xFFFFFFFF80000000 = true := by decide +kernel
theorem test_VI9 :
    ends (run (atPc (start .rv32) 0x1000) 0x00001297) (fun t => t.readX 64 5 == 0x2000 && t.hart.pc == 0x1004) = true :=
  by decide +kernel
theorem test_VI10 :
    gives (run (withBytes (start .rv32 [(6, 0x200)]) 0x200 [0x80]) 0x00030283) 5 0xFFFFFF80 = true := by decide +kernel
theorem test_VI11 :
    gives (run (withBytes (start .rv32 [(6, 0x200)]) 0x200 [0x34, 0x82]) 0x00031283) 5 0xFFFF8234 = true := by decide +kernel
theorem test_VI12 :
    gives (run (withBytes (start .rv64 [(6, 0x200)]) 0x200 [0, 0, 0, 0x80]) 0x00036283) 5 0x0000000080000000 = true :=
  by decide +kernel
theorem test_VI13 :
    gives (run (withBytes (start .rv32 [(6, 0x201)]) 0x201 [1, 2, 3, 4]) 0x00032283) 5 0x04030201 = true := by decide +kernel
theorem test_VI14 :
    ends (run (start .rv32 [(5, 0xAABBCCDD), (6, 0x200)]) 0x00532023)
      (fun t => [0x1FF, 0x200, 0x201, 0x202, 0x203, 0x204].map t.mem.read == [0, 0xDD, 0xCC, 0xBB, 0xAA, 0]) = true :=
  by decide +kernel
theorem test_VI15 :
    ends (run (start .rv32 [(1, 0x2001)]) 0x00008067) (fun t => t.hart.pc == 0x2000 && t.readX 64 0 == 0) = true :=
  by decide +kernel
theorem test_VI16 :
    ends (run (start .rv32 [(1, 0x2000)]) 0x000080E7) (fun t => t.hart.pc == 0x2000 && t.readX 64 1 == 0x104) = true :=
  by decide +kernel
theorem test_VI17 :
    haltsAt (run (start .rv32 [(1, 7), (2, 7)]) 0xF02080E3) .illegalInstruction 0x100 = true := by decide +kernel
theorem test_VI18 :
    haltsAt (run (start .rv32 [(1, 1)]) 0x02009193) .illegalInstruction 0x100 = true := by decide +kernel
theorem test_VI19 : gives (run (start .rv64 [(1, 1)]) 0x02009193) 3 0x100000000 = true := by decide +kernel
theorem test_VI20 : gives (run (start .rv32 [(5, 9)]) 0x00728013) 0 0 = true := by decide +kernel
theorem test_VI21 :
    ends (run (start .rv32) 0x0330000F)
      (fun t => t == ((start .rv32).withFetchWord 32 0x0330000F).setPc (0x104 : Word)) = true := by decide +kernel
theorem test_VI22 : haltsAt (run (start .rv32) 0x00100073) .breakpoint 0x100 = true := by decide +kernel
/-- V-I23: the answer is taken whatever request it answers. -/
theorem test_VI23 :
    let t := (start .rv32 [(17, 64), (10, 1), (11, 0x300), (12, 5)]).takeAnswer (.result 5 [(0x300, 7)])
    t.readX 64 10 = 5 ∧ t.hart.pc = 0x104 ∧ t.mem.read 0x300 = 7 ∧ t.exited = false := by decide +kernel
theorem test_VI24 :
    let t := (start .rv32 [(10, 1)]).takeAnswer .exit
    t.readX 64 10 = 1 ∧ t.hart.pc = 0x100 ∧ step t = .fault .runEnded := ⟨by decide +kernel, by decide +kernel, rfl⟩
theorem test_ecall_request :
    (withBytes (start .rv32 [(17, 64), (10, 1), (11, 0x300), (12, 5), (13, 6)]) 0x300 [8]).hostRequest =
      ⟨64, 1, 0x300, 5, 6, [(0x300, 8)]⟩ ∧
    (reduced (start .rv32 [(5, 9)])).hostRequest = ⟨9, 0, 0, 0, 0, []⟩ := by decide +kernel
theorem test_VI25 :
    ends (run (start .rv32 [(2, 0x1000)]) 0x00810113)
      (fun t => t.readX 64 2 == 0x1008 && t.hart.status == .halted .illegalInstruction 0x100 && t.hart.pc == 0x100) = true :=
  by decide +kernel
theorem test_VI26 : gives (run (reduced (start .rv32 [(2, 0x1000)])) 0x00810113) 2 0x1008 = true := by decide +kernel
theorem test_S4 :
    ends (run (start .rv64 [(2, 0x1000)]) 0x0800) (fun t => t.readX 64 8 == 0x1010 && t.hart.pc == 0x102) = true :=
  by decide +kernel
theorem test_VC1 :
    ends (run (start .rv32 [(2, 0x1000)]) 0x713D) (fun t => t.readX 64 2 == 0xFE0 && t.hart.pc == 0x102) = true :=
  by decide +kernel
theorem test_VC2 :
    ends (run (withBytes (start .rv32 [(2, 0x1000)]) 0x1004 [7]) 0x4292) (fun t => t.readX 64 5 == 7 && t.hart.pc == 0x102) = true :=
  by decide +kernel
theorem test_VC3 :
    ends (run (start .rv32 [(2, 0x1000), (5, 7)]) 0xC216) (fun t => [0x1003, 0x1004, 0x1005, 0x1007].map t.mem.read == [0, 7, 0, 0] && t.hart.pc == 0x102) = true :=
  by decide +kernel
theorem test_VC4 :
    ends (run (atPc (start .rv32) 0x120) 0xB7C5) (fun t => t.hart.pc == 0x100) = true := by decide +kernel
theorem test_VC5 :
    ends (run (start .rv32 [(5, 0x301)]) 0x9282) (fun t => t.readX 64 1 == 0x102 && t.hart.pc == 0x300) = true :=
  by decide +kernel
theorem test_VC6 :
    ends (run (start .rv64 [(5, 0x7FFFFFFF)]) 0x2285) (fun t => t.readX 64 5 == 0xFFFFFFFF80000000) = true :=
  by decide +kernel
theorem test_VC7 :
    ends (run (start .rv32 [(5, 0x1008), (2, 0x1000)]) 0x8116) (fun t => t.readX 64 2 == 0x1008 && t.hart.status == .halted .illegalInstruction 0x100) = true :=
  by decide +kernel
theorem test_VC8_step : haltsAt (run (start .rv64) 0) .illegalInstruction 0x100 = true := by decide +kernel
theorem test_VC9_step : records (run (start .rv32) 0x6101) .unmatchedHalf = true := by decide +kernel
theorem test_VC11 :
    ends (run (start .rv64 [(8, 0), (9, 1)]) 0x9C05) (fun t => t.readX 64 8 == 0xFFFFFFFFFFFFFFFF) = true := by decide +kernel
theorem test_VC12 : haltsAt (run (start .rv32) 0x9002) .breakpoint 0x100 = true := by decide +kernel
theorem test_VH15 :
    haltsAt (run (atPc (start .rv32) 0xFFFFFFFE) 0x0001) .illegalInstruction 0xFFFFFFFE = true := by decide +kernel
theorem test_VD6 :
    ends (run (atPc (start .rv32 [(5, 9)]) 0xFFFFFFFC) 0x00700293)
      (fun t => t.readX 64 5 == 7 && t.hart.status == .halted .illegalInstruction 0xFFFFFFFC) = true := by decide +kernel
theorem test_VM1_mulh :
    gives (run (start .rv64 [(1, 0x8000000000000000), (2, 0x8000000000000000)]) 0x022091B3) 3 0x4000000000000000 = true :=
  by decide +kernel
theorem test_VM1_mul :
    gives (run (start .rv64 [(1, 0x8000000000000000), (2, 0x8000000000000000)]) 0x022081B3) 3 0 = true := by decide +kernel
theorem test_VM2_mulh :
    gives (run (start .rv64 [(1, 0xFFFFFFFFFFFFFFFF), (2, 1)]) 0x022091B3) 3 0xFFFFFFFFFFFFFFFF = true := by decide +kernel
theorem test_VM3 :
    gives (run (start .rv64 [(1, 0xFFFFFFFFFFFFFFFF), (2, 0xFFFFFFFFFFFFFFFF)]) 0x0220A1B3) 3 0xFFFFFFFFFFFFFFFF = true :=
  by decide +kernel
theorem test_VM4 :
    gives (run (start .rv64 [(1, 0xFFFFFFFFFFFFFFFF), (2, 0xFFFFFFFFFFFFFFFF)]) 0x0220B1B3) 3 0xFFFFFFFFFFFFFFFE = true :=
  by decide +kernel
theorem test_VM5 :
    gives (run (start .rv64 [(1, 0x8000000000000000), (2, 0xFFFFFFFFFFFFFFFF)]) 0x0220C1B3) 3 0x8000000000000000 = true :=
  by decide +kernel
theorem test_VM6 :
    gives (run (start .rv64 [(1, 0x8000000000000000), (2, 0xFFFFFFFFFFFFFFFF)]) 0x0220E1B3) 3 0 = true := by decide +kernel
theorem test_VM7 :
    gives (run (start .rv64 [(1, 12345), (2, 0)]) 0x0220D1B3) 3 0xFFFFFFFFFFFFFFFF = true := by decide +kernel
theorem test_VM8 : gives (run (start .rv64 [(1, 12345), (2, 0)]) 0x0220F1B3) 3 12345 = true := by decide +kernel
theorem test_VM9 :
    gives (run (start .rv64 [(1, 0x00000000FFFFFFF9), (2, 0)]) 0x0220E1BB) 3 0xFFFFFFFFFFFFFFF9 = true := by decide +kernel
theorem test_VM10 : gives (run (start .rv32 [(1, 2), (3, 4), (2, 0x1000)]) 0x02308133) 2 8 = true := by decide +kernel

/-! Atomics: the instruction stands at 0x400, since the vectors use the word at 0x100. -/

theorem test_VA1_lr :
    ends (run (atPc (withBytes (start .rv32 [(6, 0x100), (8, 9)]) 0x100 [5]) 0x400) 0x100322AF) (fun t => t.readX 64 5 == 5 && t.resv == [0x100]) = true :=
  by decide +kernel
theorem test_VA1_sc :
    ends (run (reserving (atPc (withBytes (start .rv32 [(6, 0x100), (8, 9)]) 0x100 [5]) 0x400) 0x100) 0x188323AF)
      (fun t => t.readX 64 7 == 0 && t.resv == [] && t.mem.read 0x100 == 9) = true := by decide +kernel
theorem test_VA2 :
    ends (run (atPc (withBytes (start .rv32 [(6, 0x100), (8, 9)]) 0x100 [3]) 0x400) 0x188323AF)
      (fun t => t.readX 64 7 == 1 && t.mem.read 0x100 == 3) = true := by decide +kernel
theorem test_VA3_store_keeps :
    ends (run (reserving (atPc (withBytes (start .rv32 [(6, 0x100), (8, 9)]) 0x100 [5]) 0x400) 0x100) 0x00032023)
      (fun t => t.resv == [0x100] && t.mem.read 0x100 == 0) = true := by decide +kernel
theorem test_VA4 :
    ends (run (reserving (atPc (withBytes (start .rv64 [(6, 0x100), (8, 0x1122334455667788)]) 0x100 [5]) 0x400) 0x100) 0x188333AF) (fun t =>
      [0x100, 0x101, 0x106, 0x107].map t.mem.read == [0x88, 0x77, 0x22, 0x11] && t.readX 64 7 == 0) = true :=
  by decide +kernel
theorem test_VA6 :
    ends (run (atPc (withBytes (start .rv32 [(6, 0x100), (8, 9)]) 0x100 [5]) 0x400) 0x008323AF)
      (fun t => t.readX 64 7 == 5 && t.mem.read 0x100 == 14) = true := by decide +kernel
theorem test_VA7 :
    ends (run (atPc (withBytes (start .rv32 [(6, 0x100), (8, 1)]) 0x100 [0xFF, 0xFF, 0xFF, 0xFF]) 0x400) 0x808323AF)
      (fun t => t.readX 64 7 == 0xFFFFFFFF && t.mem.read 0x103 == 0xFF) = true := by decide +kernel
theorem test_VA8 :
    ends (run (atPc (withBytes (start .rv64 [(6, 0x100), (8, 1)]) 0x100 [0xFF, 0xFF, 0xFF, 0x7F]) 0x400) 0x008323AF)
      (fun t => t.readX 64 7 == 0x7FFFFFFF && [0x100, 0x103].map t.mem.read == [0, 0x80]) = true := by decide +kernel
/-- V-A5: the hart the schedule picks takes a reservation another hart made. -/
theorem test_VA5 :
    let other : Hart := { (start .rv32 [(6, 0x100), (8, 9)]).hart with id := 1, pc := 0x400 }
    ends (run { reserving (start .rv32) 0x100 with parked := [other], schedule := [1] } 0x188323AF)
      (fun t => t.hart.id == 1 && t.readX 64 7 == 0 && t.mem.read 0x100 == 9 && t.resv == [] && t.parked.length == 1)
      = true := by decide +kernel

/-! Floating point: what is exact. A single or half result leaves a free value above it, so those are read by law. -/

theorem test_VF7_FF800000 :
    gives (run (withF (start .rv32) 1 0xFF800000) 0xE00091D3) 3 0x001 = true := by decide +kernel
theorem test_VF7_80000000 :
    gives (run (withF (start .rv32) 1 0x80000000) 0xE00091D3) 3 0x008 = true := by decide +kernel
theorem test_VF7_00000001 :
    gives (run (withF (start .rv32) 1 0x00000001) 0xE00091D3) 3 0x020 = true := by decide +kernel
theorem test_VF7_7F800001 :
    gives (run (withF (start .rv32) 1 0x7F800001) 0xE00091D3) 3 0x100 = true := by decide +kernel
theorem test_VF7_7FC00000 :
    gives (run (withF (start .rv32) 1 0x7FC00000) 0xE00091D3) 3 0x200 = true := by decide +kernel
theorem test_VF6 :
    withSign (0xBF800000 : BitVec 32) (signBit (0xBF800000 : BitVec 32) ^^ signBit (0xBF800000 : BitVec 32)) =
      0x3F800000 := by decide +kernel
theorem test_VF8 :
    ends (run (withF (withF (start .rv32) 1 0x7FC00000) 2 0x7FC00000) 0xA020A1D3)
      (fun t => t.readX 64 3 == 0) = true := by decide +kernel
theorem test_VF9 :
    ends (run (withF (withF (start .rv32) 1 0x7FC00000) 2 0x3F800000) 0xA02091D3)
      (fun t => t.readX 64 3 == 0) = true := by decide +kernel
theorem test_flt_orders :
    ends (run (withF (withF (start .rv32) 1 0xBF800000) 2 0x3F800000) 0xA02091D3)
      (fun t => t.readX 64 3 == 1) = true := by decide +kernel
theorem test_VF12 :
    records (run (withFrm (start .rv32) 5) 0x0020F1D3) .reservedRoundingMode = true := by decide +kernel
theorem test_VF13_mode : (withFrm (start .rv32) 1).rmEff 7 = some .rtz := by decide +kernel
theorem test_VF14 :
    gives (run (withF (start .rv64) 1 0xBF800000) 0xE00082D3) 5 0xFFFFFFFFBF800000 = true := by decide +kernel
theorem test_VF15 :
    let s := withBytes (start .rv64 [(6, 0x200)]) 0x200 [0, 0, 0x80, 0x3F]
    Completes (.flw 1 6 0) s fun t => t.readF .s 1 = 0x3F800000 := by
  intro s
  refine ⟨s.intoF .s (4 : BitVec s.bits) 1 ((s.mem.load (s.addrI s.bits 6 0) 4).setWidth 32), ?_, ?_⟩
  · show naming [6] s (.next (s.loading 4 (s.addrI s.bits 6 0) fun v => s.intoF .s (4 : BitVec s.bits) 1 (v.setWidth 32))) = _
    rw [naming_of_mayName (by decide), State.loading_admitted (by decide)]
  · exact (State.intoF_writesF s .s (4 : BitVec s.bits) 1 _).result.trans (by decide +kernel)
theorem test_VF17 :
    ends (run (withF (start .rv32) 1 0x3F800000) 0x420081D3)
      (fun t => t.readF .d 3 == 0x3FF0000000000000) = true := by decide +kernel
theorem test_VFH2 : exactConvert .h .s 0x3C00 = some 0x3F800000 := by decide +kernel
theorem test_VFH3 : exactConvert .s .h 0x3F800000 = some 0x3C00 := by decide +kernel
theorem test_VFH4_inf : gives (run (withF (start .rv32) 1 0xFC00) 0xE40091D3) 3 0x001 = true := by decide +kernel
theorem test_VFH4_nan : gives (run (withF (start .rv32) 1 0x7E00) 0xE40091D3) 3 0x200 = true := by decide +kernel
theorem test_VBF2 : (0x3F80 : BitVec 16) ++ (0 : BitVec 16) = (0x3F800000 : BitVec 32) := by decide +kernel
/-- -3.0 to an integer; -1.5 is no integer (V-F5). -/
theorem test_toInt_negative : exactToInt .s .s32 0xC0400000 = some (0xFFFFFFFD : BitVec 32) := by decide +kernel
theorem test_toInt_fraction : exactToInt .s .s32 0xBFC00000 = none := by decide +kernel
/-- 2^31 is outside the signed range and inside the unsigned one. -/
theorem test_toInt_range :
    exactToInt .s .s32 0x4F000000 = none ∧ exactToInt .s .u32 0x4F000000 = some (0x80000000 : BitVec 32) := by decide +kernel
/-- -3 to a single; 2049 needs 12 bits and a half has 11. -/
theorem test_fromInt :
    exactFromInt .s .s32 (0xFFFFFFFD : BitVec 32) = some 0xC0400000 ∧ exactFromInt .h .s32 (2049 : BitVec 32) = none :=
  by decide +kernel

/-! Packed SIMD -/

theorem test_S3 :
    givesOv (run (start .rv32 [(1, 0x7FFF0001), (2, 0x00010001)]) 0x102081F7) 3 0x7FFF0002 1 = true := by decide +kernel
theorem test_VP1 :
    givesOv (run (start .rv32 [(1, 0x7FFF0001), (2, 0x00010001)]) 0x402081F7) 3 0x80000002 0 = true := by decide +kernel
theorem test_VP2 :
    givesOv (run (start .rv64 [(1, 0x7FFF80000001FFFF), (2, 0x0001FFFF00010001)]) 0x102081F7) 3 0x7FFF800000020000 1 = true :=
  by decide +kernel
theorem test_VP3 :
    givesOv (run (overflowed (start .rv32 [(1, 0x00010001), (2, 0x00010001)])) 0x102081F7) 3 0x00020002 1 = true :=
  by decide +kernel
theorem test_VP4 :
    givesOv (run (start .rv32 [(1, 0xFFFF0001), (2, 0x00010001)]) 0x302081F7) 3 0xFFFF0002 1 = true := by decide +kernel
theorem test_VP5 :
    givesOv (run (start .rv32 [(1, 0x807F0010), (2, 0x01FF0020)]) 0x1A2081F7) 3 0x807F00F0 1 = true := by decide +kernel
theorem test_VP6 :
    givesOv (run (start .rv32 [(1, 0x00050003), (2, 0x00010002)]) 0x442081F7) 3 0x00070002 0 = true := by decide +kernel
theorem test_VP7 :
    givesOv (run (start .rv32 [(1, 0x00050003), (2, 0x00010002)]) 0x042081F7) 3 0x00030001 0 = true := by decide +kernel
theorem test_VP8 :
    givesOv (run (start .rv32 [(1, 0x00050003), (2, 0x00010002)]) 0x242081F7) 3 0x00030001 0 = true := by decide +kernel
theorem test_VP9 :
    givesOv (run (start .rv32 [(1, 0x00050003), (2, 0x00010002)]) 0x142081F7) 3 0x00070002 0 = true := by decide +kernel
theorem test_VP10 :
    givesOv (run (start .rv32 [(1, 0x00050003), (2, 0x00010002)]) 0x342081F7) 3 0x00070002 0 = true := by decide +kernel
theorem test_VP11 :
    givesOv (run (start .rv32 [(1, 0x00050003), (2, 0x00010002)]) 0x462081F7) 3 0x00030004 0 = true := by decide +kernel
theorem test_VP12 :
    givesOv (run (start .rv32 [(1, 0x00050003), (2, 0x00010002)]) 0x062081F7) 3 0x00010002 0 = true := by decide +kernel
theorem test_VP13 :
    givesOv (run (start .rv32 [(1, 0x00050003), (2, 0x00010002)]) 0x262081F7) 3 0x00010002 0 = true := by decide +kernel
theorem test_VP14 :
    givesOv (run (start .rv32 [(1, 0x00050003), (2, 0x00010002)]) 0x162081F7) 3 0x00030004 0 = true := by decide +kernel
theorem test_VP15 :
    givesOv (run (start .rv32 [(1, 0x00050003), (2, 0x00010002)]) 0x362081F7) 3 0x00030004 0 = true := by decide +kernel
theorem test_VP16 :
    givesOv (run (start .rv32 [(1, 0x00020001), (2, 0x00030001)]) 0x362081F7) 3 0x00010004 0 = true := by decide +kernel
theorem test_VP17 :
    givesOv (run (start .rv32 [(1, 0x00000001), (2, 0x00020000)]) 0x342081F7) 3 0 1 = true := by decide +kernel
theorem test_VP18 :
    givesOv (run (start .rv32 [(1, 0x80007FFF), (2, 15)]) 0x602081F7) 3 0xFFFF0001 0 = true := by decide +kernel
theorem test_VP19 :
    givesOv (run (start .rv32 [(1, 0x00010001), (2, 0x1F)]) 0x642081F7) 3 0x7FFF7FFF 1 = true := by decide +kernel
theorem test_VP20 :
    givesOv (run (start .rv32 [(1, 0x80007FFF), (2, 0x10)]) 0x562081F7) 3 0xFFFF0000 0 = true := by decide +kernel
theorem test_VP21 :
    givesOv (run (start .rv32 [(1, 0x7FFF8000), (2, 0x7FFF8000)]) 0x862081F7) 3 0x7FFE7FFF 1 = true := by decide +kernel
theorem test_VP22 :
    givesOv (run (start .rv32 [(1, 0x40008000), (2, 0x80004000)]) 0x962081F7) 3 0x20007FFF 1 = true := by decide +kernel
theorem test_VP23 :
    givesOv (run (start .rv32 [(1, 0x80000005)]) 0x847081F7) 3 0xFF800005 1 = true := by decide +kernel
theorem test_VP24 : givesOv (run (start .rv32 [(1, 0x80000000)]) 0x850081F7) 3 0 1 = true := by decide +kernel
theorem test_VP25 :
    givesOv (run (start .rv32 [(1, 0x80018000)]) 0xAD1081F7) 3 0x7FFF7FFF 1 = true := by decide +kernel
theorem test_VP26 :
    givesOv (run (start .rv32 [(1, 0x7FFF0001), (2, 0x00010001)]) 0x10208077) 0 0 1 = true := by decide +kernel

/-! The helpers, V-H1 to V-H14 -/

theorem test_VH1 : satS 16 32768 15 = (0x7FFF, true) := by decide +kernel
theorem test_VH2 : satS 16 (-32769) 15 = (0x8000, true) := by decide +kernel
theorem test_VH3 : satS 16 (-32768) 15 = (0x8000, false) := by decide +kernel
theorem test_VH4 : satS 16 100 15 = (100, false) := by decide +kernel
theorem test_VH5 : satU 16 (-1) 16 = (0, true) := by decide +kernel
theorem test_VH6 : satU 16 65536 16 = (0xFFFF, true) := by decide +kernel
theorem test_VH7 : khm (0x8000 : BitVec 16) 0x7FFF = (0x8001, false) := by decide +kernel
theorem test_VH8 : khm (0xFFFF : BitVec 16) 0x0001 = (0xFFFF, false) := by decide +kernel
theorem test_VH9 : khm (0x7FFF : BitVec 16) 0x7FFF = (0x7FFE, false) := by decide +kernel
theorem test_VH10 : khm (0x8000 : BitVec 16) 0x8000 = (0x7FFF, true) := by decide +kernel
theorem test_VH11 : rShrS (0x8000 : BitVec 16) 15 = 0xFFFF := by decide +kernel
theorem test_VH12 : rShrS (0x7FFF : BitVec 16) 15 = 0x0001 := by decide +kernel
theorem test_VH13 : rShrS (0x1234 : BitVec 16) 0 = 0x1234 := by decide +kernel
theorem test_VH14 : (inTable (start .rv32)).npc 32 4 = 0x102 := by decide +kernel

/-! CSRs -/

theorem test_VRC1 :
    ends (run (overflowed (start .rv32 [(1, 0)])) 0x801091F3) (fun t => t.readX 64 3 == 1 && t.hart.ucode == 0) = true :=
  by decide +kernel
theorem test_VRC2 :
    ends (run (overflowed (start .rv32 [(1, 1)])) 0x8010B1F3) (fun t => t.readX 64 3 == 1 && t.hart.ucode == 0) = true :=
  by decide +kernel
/-- V-RC3: the value is the free value. -/
theorem test_VRC3 :
    ∃ t, exec (.csrrs 3 0xC80 0) (start .rv32) = .next t ∧ t.hart.pc = 0x104 ∧ t.draws = 1 ∧
      t.readX 32 3 = (Config.draw 0).setWidth 32 := by
  refine ⟨_, rfl, by decide +kernel, by decide +kernel, ?_⟩
  show BitVec.setWidth 32 (BitVec.setWidth 64 (BitVec.setWidth 32 (Config.draw 0))) = _
  rw [BitVec.setWidth_setWidth_of_le _ (by decide)]
  simp
theorem test_VRC4 : haltsAt (run (start .rv64) 0xC80021F3) .illegalInstruction 0x100 = true := by decide +kernel
theorem test_VRC5_write :
    ends (run ((start .rv32).csrWrite .fflags (3 : BitVec 32)) 0x0020D073)
      (fun t => t.hart.frm == 1 && t.hart.fflags == 3) = true := by decide +kernel
theorem test_VRC5_read :
    gives (run (withFrm ((start .rv32).csrWrite .fflags (3 : BitVec 32)) 1) 0x003021F3) 3 0x23 = true := by decide +kernel
theorem test_VRC6 :
    ends (run (start .rv32 [(1, 0x115)]) 0x00309073) (fun t => t.hart.frm == 0 && t.hart.fflags == 0x15 && t.hart.fcsrOpen) = true :=
  by decide +kernel
theorem test_VRC7 : records (run (start .rv32) 0x7C0021F3) .unknownCsr = true := by decide +kernel
theorem test_VRC9 :
    ends (exec (.csrrs 2 0x801 0) ((start .rv32 [(2, 0x1000)]).csrWrite .ucode (0x1008 : BitVec 32)))
      (fun t => t.readX 64 2 == 0x1008 && t.hart.status == .halted .illegalInstruction 0x100) = true := by decide +kernel

/-! Vendor instructions: 0x8000 stands for exec.it 1 -/

/-- uitb = 0x8000 and one entry. -/
def tabled (s : State) (entry : List Byte) : State :=
  withBytes ((supplied s).csrWrite .uitb (0x8000 : BitVec 32)) 0x8004 entry

theorem test_VV1 :
    ends (run (tabled (start .rv32 [(5, 4)]) [0x93, 0x82, 0x12, 0x00]) 0x8000)
      (fun t => t.readX 64 5 == 5 && t.hart.pc == 0x102 && !t.hart.te) = true := by decide +kernel
theorem test_VV2 :
    ends (run (tabled (start .rv32) [0x6F, 0x00, 0x00, 0x00]) 0x8000) (fun t => t.hart.pc == 0x100) = true :=
  by decide +kernel
theorem test_VV3 :
    records (run (tabled (start .rv32) [0x01, 0x00, 0x00, 0x00]) 0x8000) .tableEntry = true := by decide +kernel
theorem test_VV4 : records (run (start .rv32) 0x8000) .unmatchedHalf = true := by decide +kernel
theorem test_VV5 :
    refuses (exec (.lmw 10 0 1 ⟨.postAscending, .full⟩ false) (start .rv32)) .lsmOpen = true := by decide +kernel
theorem test_VV6 :
    haltsAt (exec (.lmw 0 0 1 ⟨.postAscending, .full⟩ false) (supplied (start .rv32))) .illegalInstruction 0x100 = true :=
  by decide +kernel
theorem test_lmw_loads :
    ends (run (withBytes (supplied (start .rv32 [(10, 0x200)])) 0x200 [1, 0, 0, 0, 2]) 0x0000000B)
      (fun t => t.readX 64 5 == 1 && t.readX 64 6 == 2) = true := by decide +kernel
/-- A 16-bit lmw (spec/48_andes_vendor.md R380): npc is pc + 2 (spec/40_helpers.md R55). -/
theorem test_lmw_half :
    ends (run (withBytes (supplied (start .rv32 [(10, 0x200)])) 0x200 [1, 0, 0, 0, 2]) 0x8002)
      (fun t => t.readX 64 6 == 2 && t.hart.pc == 0x102) = true := by decide +kernel
/-- The second of two loads refused: the first is kept. -/
theorem test_lmw_refused :
    ends (exec (.lmw 10 0 1 ⟨.postAscending, .full⟩ false)
        (let s := withBytes (supplied (start .rv32 [(10, 0x200), (6, 9)])) 0x200 [1, 0, 0, 0, 2]
         { s with params := { s.params with refusals := [⟨0x204, 0x204, 4, .read⟩] } }))
      (fun t => t.hart.status == .stuck && t.readX 64 5 == 1 && t.readX 64 6 == 9 && t.readX 64 10 == 0x200) = true := by
  decide +kernel
theorem test_smw_stores :
    ends (exec (.smw 10 0 1 ⟨.postDescending, .full⟩ false) (supplied (start .rv32 [(10, 0x204), (5, 7), (6, 8)])))
      (fun t => t.mem.read 0x204 == 7 && t.mem.read 0x200 == 8) = true := by decide +kernel

/-! REDUCED_ABI, the refused mark and the requests of the launch memory -/

/-- The mark that a refused step sets is kept and ends the run (spec/00_scope.md R8, spec/60_exceptions.md R400). -/
theorem test_refused_mark :
    ends (run (start .rv32) 0x8000) (fun t => t.hart == (start .rv32).hart && refuses (step t) .unmatchedHalf) = true := by
  decide +kernel

/-- add x16, x0, x0 (spec/10_state.md R13). -/
theorem test_reduced_abi :
    records (run (reduced (start .rv32)) 0x00000833) .reducedAbiRegister = true := by decide +kernel
theorem test_refused_load :
    ends (run (refusing (start .rv32 [(5, 9), (6, 0x200)]) .read) 0x00032283)
      (fun t => t.hart.status == .stuck && t.readX 64 5 == 9 && t.hart.pc == 0x100) = true := by decide +kernel
theorem test_refused_fetch :
    ends (run (refusing (start .rv32) .fetch) 0x002081B3) (fun t => t.hart.status == .stuck) = true := by decide +kernel

/-! ## Witnesses: the hypotheses of the statements can be met, clause by clause -/

theorem witness_RegisterZeroAndNextPc : (31 : Reg) ≠ 0 ∧ (30 : Reg) ≠ 31 := by decide +kernel
/-- The last address of a wide access and the first after it; a space of 4 bytes filled whole. -/
theorem witness_MemoryBytes :
    8 ≤ 2 ^ 32 ∧ 4 ≤ 2 ^ 2 ∧ (0 : Nat) < 4 ∧ 3 < 4 ∧ Memory.wf [(3, 7), (5, 1)] = true ∧
    (∀ j, j < 8 → 0x108 ≠ (0x100 + BitVec.ofNat 32 j : BitVec 32).toNat) := by decide +kernel
/-- What every statement with registers asks; the next nine ask nothing more. -/
theorem witness_mayName :
    (start .rv32).mayName [0, 2, 31] = true ∧ (reduced (start .rv64)).mayName [15, 15, 15] = true ∧
    (reduced (start .rv64)).mayName [16] = false := by decide +kernel
theorem witness_UpperImmediates :
    (start .rv32).mayName [2] = true ∧ (reduced (start .rv64)).mayName [15] = true := by decide +kernel
theorem witness_RegisterArithmetic :
    (start .rv32).mayName [2, 31, 0] = true ∧ (reduced (start .rv64)).mayName [15, 0, 2] = true := by decide +kernel
theorem witness_ConditionalBranches :
    (start .rv32).mayName [2, 31] = true ∧ (reduced (start .rv64)).mayName [15, 0] = true := by decide +kernel
theorem witness_MultiplyDivide :
    (start .rv32).mayName [2, 31, 0] = true ∧ (reduced (start .rv64)).mayName [15, 0, 2] = true := by decide +kernel
theorem witness_PackedWrapHalve :
    (start .rv32).mayName [2, 31, 0] = true ∧ (reduced (start .rv64)).mayName [15, 0, 2] = true := by decide +kernel
theorem witness_PackedSaturate :
    (start .rv32).mayName [2, 31, 0] = true ∧ (reduced (start .rv64)).mayName [15, 0, 2] = true := by decide +kernel
theorem witness_PackedCrossed :
    (start .rv32).mayName [2, 31, 0] = true ∧ (reduced (start .rv64)).mayName [15, 0, 2] = true := by decide +kernel
theorem witness_PackedCompareSelect :
    (start .rv32).mayName [2, 31, 0] = true ∧ (reduced (start .rv64)).mayName [15, 0, 2] = true := by decide +kernel
theorem witness_PackedMultiplyClip :
    (start .rv32).mayName [2, 31, 0] = true ∧ (reduced (start .rv64)).mayName [15, 0, 2] = true := by decide +kernel
theorem witness_ImmediateArithmetic :
    (31 : BitVec 6).toNat < (start .rv32).bits ∧ ¬(32 : BitVec 6).toNat < (start .rv32).bits ∧
    (63 : BitVec 6).toNat < (start .rv64).bits := by decide +kernel
theorem witness_WordArithmetic :
    (start .rv64).params.xlen = .rv64 ∧ (start .rv64).mayName [31, 0, 2] = true := by decide +kernel
theorem witness_MultiplyDivideWord :
    (start .rv64).params.xlen = .rv64 ∧ (reduced (start .rv64)).mayName [15, 0, 2] = true := by decide +kernel
theorem witness_JumpAndLink :
    (start .rv32).hart.te = false ∧ (inTable (start .rv32)).hart.te = true ∧
    (inTable (start .rv32)).params.execItLink = none ∧
    (let s := inTable (start .rv64)
     ({ s with params := { s.params with execItLink := some (.offset 2) } } : State).params.execItLink = some (.offset 2) ∧
       ({ s with params := { s.params with execItLink := some .supplied } } : State).params.execItLink = some .supplied ∧
       s.hart.te = true) ∧
    (1 : Reg) ≠ 0 := by decide +kernel
theorem witness_IntegerLoads :
    (start .rv32).mayName [31, 2] = true ∧ (start .rv32).params.admits (2 ^ 32 - 1) 8 .read = true ∧
    (refusing (start .rv64) .read).params.admits (2 ^ 64 - 1) 8 .read = false ∧ (start .rv64).params.xlen = .rv64 :=
  by decide +kernel
theorem witness_IntegerStores :
    (start .rv32).mayName [0, 31] = true ∧ (start .rv32).params.admits (2 ^ 32 - 1) 8 .write = true ∧
    (refusing (start .rv64) .write).params.admits (2 ^ 64 - 1) 8 .write = false ∧ (start .rv64).params.xlen = .rv64 :=
  by decide +kernel
theorem witness_CompressedIntegerMemory :
    (start .rv32).mayName [31] = true ∧ (start .rv32).params.admits (2 ^ 32 - 1) 4 .read = true ∧
    (refusing (start .rv64) .read).params.admits (2 ^ 64 - 1) 4 .read = false ∧ (start .rv64).params.xlen = .rv64 :=
  by decide +kernel
theorem witness_CompressedIntegerMemory_store :
    (start .rv32).mayName [31] = true ∧ (start .rv32).params.admits (2 ^ 32 - 1) 4 .write = true ∧
    (refusing (start .rv64) .write).params.admits (2 ^ 64 - 1) 4 .write = false ∧ (start .rv64).params.xlen = .rv64 :=
  by decide +kernel
theorem witness_CompressedFloatMemory :
    (start .rv32).params.admits (2 ^ 32 - 1) 8 .read = true ∧
    (refusing (start .rv64) .read).params.admits (2 ^ 64 - 1) 8 .read = false ∧ (start .rv64).params.xlen = .rv64 :=
  by decide +kernel
theorem witness_CompressedFloatMemory_store :
    (start .rv32).params.admits (2 ^ 32 - 1) 8 .write = true ∧
    (refusing (start .rv64) .write).params.admits (2 ^ 64 - 1) 8 .write = false ∧ (start .rv64).params.xlen = .rv64 :=
  by decide +kernel
theorem witness_FloatMemory :
    (start .rv32).mayName [2] = true ∧ (start .rv32).params.admits (2 ^ 32 - 1) 2 .read = true ∧
    (refusing (start .rv64) .read).params.admits (2 ^ 64 - 1) 2 .read = false ∧ (start .rv64).params.xlen = .rv64 :=
  by decide +kernel
theorem witness_FloatMemory_store :
    (start .rv32).mayName [2] = true ∧ (start .rv32).params.admits (2 ^ 32 - 1) 2 .write = true ∧
    (refusing (start .rv64) .write).params.admits (2 ^ 64 - 1) 2 .write = false ∧ (start .rv64).params.xlen = .rv64 :=
  by decide +kernel
theorem witness_LoadReserved :
    (start .rv32).mayName [0, 31] = true ∧ (start .rv32).params.admits (2 ^ 32 - 1) 4 .read = true ∧
    (refusing (start .rv64) .read).params.admits (2 ^ 64 - 1) 4 .read = false ∧ (start .rv64).params.xlen = .rv64 :=
  by decide +kernel
theorem witness_AtomicUpdates :
    (start .rv32).mayName [0, 31, 2] = true ∧ (start .rv32).params.admits (2 ^ 32 - 1) 8 .read = true ∧
    (refusing (start .rv64) .read).params.admits (2 ^ 64 - 1) 8 .read = false ∧ (start .rv64).params.xlen = .rv64 :=
  by decide +kernel
theorem witness_AtomicUpdates_write :
    (start .rv32).mayName [0, 31, 2] = true ∧ (start .rv32).params.admits (2 ^ 32 - 1) 8 .write = true ∧
    (refusing (start .rv64) .write).params.admits (2 ^ 64 - 1) 8 .write = false ∧ (start .rv64).params.xlen = .rv64 :=
  by decide +kernel
theorem witness_CsrInstructions :
    Csr.ofNumber 0xC82 = some .instreth ∧ Csr.instreth.isHighHalf = true ∧ (start .rv32).params.xlen = .rv32 ∧
    Csr.ofNumber 0x001 = some .fflags ∧ Csr.fflags.isHighHalf = false ∧ (start .rv64).mayName [2, 0] = true :=
  by decide +kernel
theorem witness_CsrFile : (255 : BitVec 64).toNat < 2 ^ 8 ∧ 2 ^ 8 ≤ (256 : BitVec 64).toNat := by decide +kernel
theorem witness_CsrStops :
    (0xC80 : BitVec 12) ∈ [0xC80, 0xC81, 0xC82] ∧ (start .rv64).params.xlen = .rv64 ∧
    (0x004 : BitVec 12) ∉ [0x001, 0x002, 0x003, 0x800, 0x801, 0xC00, 0xC01, 0xC02, 0xC80, 0xC81, 0xC82, 0xF11, 0xF12, 0xF13,
      0xF14] := by decide +kernel
theorem witness_CompressedArithmetic :
    (31 : BitVec 6).toNat < (start .rv32).bits ∧ (63 : BitVec 6).toNat < (start .rv64).bits ∧
    (start .rv64).params.xlen = .rv64 ∧ (start .rv32).params.xlen = .rv32 := by decide +kernel
theorem witness_CompressedControl :
    (start .rv32).readX (start .rv32).bits (CReg.reg 7) = 0 ∧
    ¬(start .rv32 [(15, 1)]).readX (start .rv32 [(15, 1)]).bits (CReg.reg 7) = 0 := by decide +kernel
theorem witness_StoreConditional :
    (0 : BitVec 32).toNat ∉ (start .rv32).resv ∧ (0 : BitVec 32).toNat ∈ (reserving (start .rv32) 0).resv ∧
    (start .rv32).params.admits 0 4 .write = true ∧ (refusing (start .rv32) .write).params.admits 0 4 .write = false :=
  by decide +kernel
theorem witness_FloatRounded :
    (start .rv32).rmEff 0 = some .rne ∧ (start .rv32).rmEff 4 = some .rmm ∧ (start .rv32).rmEff 5 = none ∧
    (start .rv32).rmEff 6 = none ∧ (withFrm (start .rv32) 4).rmEff 7 = some .rmm ∧ (withFrm (start .rv32) 7).rmEff 7 = none :=
  by decide +kernel
theorem witness_FloatFormats :
    (start .rv32).rmEff 0 = some .rne ∧ (start .rv32).rmEff 6 = none ∧ (withFrm (start .rv32) 5).rmEff 7 = none :=
  by decide +kernel
theorem witness_FloatMinMax :
    isNan .s 0x7F800001 = true ∧ isNan .s 0x7F800000 = false ∧ isZero .s 0x80000000 = true ∧
    isZero .s 0x00000000 = true ∧ (0x80000000 : BitVec 32).msb ≠ (0 : BitVec 32).msb ∧ isZero .s 0x00000001 = false :=
  by decide +kernel
/-- Both outcomes: a NaN operand, and infinities compared. -/
theorem witness_FloatCompare :
    isNan .h 0x7C01 = true ∧ isNan .h 0x7C00 = false ∧ isNan .h 0xFC00 = false := by decide +kernel
/-- A value at an end of each of the ten classes. -/
theorem witness_FloatClass :
    [(0xFF800000 : BitVec 32), 0xFF7FFFFF, 0x807FFFFF, 0x80000000, 0, 0x007FFFFF, 0x00800000, 0x7F800000, 0x7F800001,
      0x7FC00000].map (fclass .s) = [1, 2, 4, 8, 16, 32, 64, 128, 256, 512] := by decide +kernel
theorem witness_FloatClass_fields :
    expField .s 0x7F800001 = maxExp .s ∧ fracField .s 0x7FBFFFFF < 2 ^ (fracBits .s - 1) ∧
    2 ^ (fracBits .s - 1) ≤ fracField .s 0x7FC00000 ∧ expField .s 0x00800000 = 1 ∧ fracField .s 0x807FFFFF ≠ 0 :=
  by decide +kernel
/-- 2^31 - 1 converts, 2^31 does not. -/
theorem witness_FloatToInteger :
    IntKind.s64.bits = 64 ∧ (start .rv64).params.xlen = .rv64 ∧ IntKind.u32.bits ≠ 64 ∧
    exactToInt .d .s32 0x41DFFFFFFFC00000 = some (0x7FFFFFFF : BitVec 32) ∧ exactToInt .d .s32 0x41E0000000000000 = none :=
  by decide +kernel
theorem witness_FloatFromInteger :
    (start .rv64).mayName [31] = true ∧ IntKind.u64.bits = 64 ∧ (start .rv64).params.xlen = .rv64 ∧ IntKind.s32.bits ≠ 64 ∧
    (start .rv64).rmEff 4 = some .rmm ∧ (start .rv64).rmEff 5 = none := by decide +kernel
theorem witness_FloatMovesAndBf16 :
    roundingMode (start .rv32).hart.frm = some .rne ∧ roundingMode (withFrm (start .rv32) 4).hart.frm = some .rmm ∧
    roundingMode (withFrm (start .rv32) 5).hart.frm = none ∧ roundingMode (withFrm (start .rv32) 7).hart.frm = none :=
  by decide +kernel
theorem witness_RoundingModes :
    (Instr.fcvtLD 15 0 5).existsOn (start .rv64).params.xlen = true ∧
    (reduced (start .rv64)).mayName (Instr.fcvtLD 15 0 5).xNames = true ∧ (reduced (start .rv64)).rmEff 5 = none :=
  by decide +kernel
/-- 1.0; the smallest subnormal half, -2^-24; the largest single below 2^64. -/
theorem witness_ConversionsKeepTheValue :
    unpack .d 0x3FF0000000000000 = some ⟨false, 2 ^ 52, -52⟩ ∧ exactConvert .d .h 0x3FF0000000000000 = some 0x3C00 ∧
    exactConvert .h .d 0x8001 = some 0xBE70000000000000 ∧ Fmt.h.bits < Fmt.d.bits ∧ isNan .h 0x8001 = false ∧
    exactFromInt .s .u64 0xFFFFFF0000000000 = some 0x5F7FFFFF ∧ exactToInt .s .u64 0x5F7FFFFF = some 0xFFFFFF0000000000 ∧
    isInf .h 0xFC00 = true ∧ exactConvert .h .d 0xFC00 = some 0xFFF0000000000000 := by decide +kernel
/-- The same number in two formats and as an integer: 1.0, 0x3C00 and 1; the zeros of both signs and 0. -/
theorem witness_ConversionsKeepTheValue_same :
    unpack .h 0x3C00 = some ⟨false, 2 ^ 10, -10⟩ ∧ unpack .h 0x8000 = some ⟨true, 0, -24⟩ ∧
    (⟨false, 2 ^ 52, -52⟩ : Finite).SameNumber ⟨false, 2 ^ 10, -10⟩ ∧
    (⟨false, 2 ^ 10, -10⟩ : Finite).SameNumber (Finite.ofInt (kindRead .s32 1)) ∧
    (Finite.ofInt (kindRead .u64 1)).SameNumber ⟨false, 2 ^ 10, -10⟩ ∧
    (⟨true, 0, -24⟩ : Finite).SameNumber (Finite.ofInt (kindRead .s32 0)) :=
  ⟨by decide +kernel, by decide +kernel, ⟨by decide, -52, by decide +kernel⟩, ⟨by decide, -10, by decide +kernel⟩,
    ⟨by decide, -10, by decide +kernel⟩, ⟨by decide, -24, by decide +kernel⟩⟩
/-- The amounts 15 and -16, where the two clauses meet their ends, and -1. -/
theorem witness_PackedShifts :
    0 ≤ ((15 : BitVec 32).setWidth 5 : BitVec 5).toInt ∧ ((16 : BitVec 32).setWidth 5 : BitVec 5).toInt < 0 ∧
    ((31 : BitVec 32).setWidth 5 : BitVec 5).toInt = -1 := by decide +kernel
theorem witness_SaturationHelpers :
    (32768 : Int) > 2 ^ 15 - 1 ∧ (-32769 : Int) < -2 ^ 15 ∧ -2 ^ 15 ≤ (-32768 : Int) ∧ (32767 : Int) ≤ 2 ^ 15 - 1 ∧
    (65536 : Int) > 2 ^ 16 - 1 ∧ (-1 : Int) < 0 ∧ (65535 : Int) ≤ 2 ^ 16 - 1 := by decide +kernel
theorem witness_LaneHelpers :
    (0x80 : BitVec 8).toInt = -2 ^ (8 - 1) ∧ ¬(0x81 : BitVec 8).toInt = -2 ^ (8 - 1) ∧ (16 : Nat) ≠ 0 ∧ 16 ≤ 16 ∧ ¬17 ≤ 16 :=
  by decide +kernel
/-- An amount above the width: the integer's bit, -1 and the bit 1, so 0 (spec/40_helpers.md R62). -/
theorem test_rounding_above_width : rShrS (0x8000 : BitVec 16) 17 = 0 ∧ rShrU (0x8000 : BitVec 16) 17 = 0 := by decide +kernel

/-! TableExecute: uitb = 0x8000, index 1 -/

theorem witness_TableExecute_refused :
    (refusing (start .rv32) .fetch).hart.te = false ∧
    (refusing (start .rv32) .fetch).params.admits 0x8004 4 .fetch = false ∧ (start .rv32).params.admits 0x8004 4 .fetch = true :=
  by decide +kernel
theorem witness_TableExecute_entry :
    ((tabled (start .rv32) [0x01]).mem.load (0x8004 : BitVec 32) 4).extractLsb' 0 2 ≠ 3 ∧
    ((tabled (start .rv32) [0x93, 0x82, 0x12, 0x00]).mem.load (0x8004 : BitVec 32) 4).extractLsb' 0 2 = 3 := by decide +kernel
theorem witness_TableExecute_decode :
    decode .rv32 [] (.full 0x0000001F) = .error .illegal ∧ decode .rv32 [] (.full 0x00128293) = .ok (.addi 5 5 1) ∧
    decode .rv32 [] (.full 0x0000006F) = .ok (.jal 0 0) ∧ decode .rv32 [] (.full 0xFE000077) = .error .packedSpace ∧
    decode .rv32 [] (.full 0x0000000B) = .error .customSpace := ⟨rfl, rfl, rfl, rfl, rfl⟩
theorem witness_TableExecute_run :
    (∃ t, exec (.addi 5 5 1) (inTable (start .rv32)) = .next t) ∧
    exec (.jal 1 0) (inTable (start .rv32)) = .refused .execItLinkOpen := ⟨⟨_, rfl⟩, rfl⟩
theorem witness_TableExecute_addi :
    (tabled (start .rv32) [0x93, 0x82, 0x12, 0x00]).mayName [5, 5] = true := by decide +kernel

/-! LoadStoreMultiple: T[0] is x5, T[1] x6, T[2] x0 -/

/-- The well-formed operands: base x10 = 0x200, indices 0 and 1. -/
theorem witness_LoadStoreMultiple :
    (start .rv32).params.lsmTable = none ∧ (supplied (start .rv64)).params.lsmTable = some table ∧
    (supplied (start .rv64)).mayName (10 :: (table.toList.drop 0).take (1 + 1 - 0)) = true ∧
    ¬((10 : Reg) = 0 ∨ table[1] = 0 ∨ (1 : BitVec 5) < 0 ∨ (0x200 : BitVec 64).toNat % 8 ≠ 0) ∧
    (table.toList.drop 0).take (1 + 1 - 0) = [5, 6] := by decide +kernel
/-- Each of the four malformed operands. -/
theorem witness_LoadStoreMultiple_bad :
    (0 : Reg) = 0 ∧ table[2] = 0 ∧ (1 : BitVec 5) < 2 ∧ (0x204 : BitVec 64).toNat % 8 ≠ 0 ∧
    (0x204 : BitVec 32).toNat % 4 = 0 := by decide +kernel
theorem witness_LoadStoreMultiple_modes :
    (LsmMode.postDescending = .postDescending ∨ LsmMode.postDescending = .preDescending) ∧
    ¬(LsmMode.preAscending = .postDescending ∨ LsmMode.preAscending = .preDescending) ∧
    (LsmMode.preAscending = .preAscending ∨ LsmMode.preAscending = .preDescending) := by decide +kernel

/-- The second transfer alone refused. -/
theorem witness_LoadStoreMultiple_refused :
    (let p : Params := { Params.reset with refusals := [⟨0x208, 0x208, 8, .read⟩] }
     p.admits 0x200 8 .read = true ∧ p.admits 0x208 8 .read = false) ∧
    (let p : Params := { Params.reset with refusals := [⟨0x208, 0x208, 8, .write⟩] }
     p.admits 0x200 8 .write = true ∧ p.admits 0x208 8 .write = false) := by decide +kernel

/-! The rules of the whole machine -/

theorem witness_ReducedAbiRefuses :
    (Instr.ld 1 16 0).existsOn (reduced (start .rv64)).params.xlen = true ∧ (reduced (start .rv64)).params.reducedAbi = true ∧
    16 ∈ (Instr.ld 1 16 0).xNames ∧ 16 ≤ (16 : Reg).toNat := by decide +kernel
theorem witness_ReducedAbiRefuses_multiple :
    (reduced (supplied (start .rv64))).params.lsmTable = some table ∧
    16 ∈ (16 : Reg) :: (table.toList.drop 0).take (1 + 1 - 0) ∧ 16 ≤ (16 : Reg).toNat := by decide +kernel
theorem witness_WrongXlenHalts :
    (Instr.ld 1 2 0).existsOn (start .rv32).params.xlen = false ∧ (Instr.cJal 0).existsOn (start .rv64).params.xlen = false ∧
    (32 : BitVec 6).getLsbD 5 = true ∧ (31 : BitVec 6).getLsbD 5 = false ∧ (start .rv32).params.xlen = .rv32 :=
  by decide +kernel
theorem witness_ReservationsKept : ∃ t, exec (.sw 5 6 0) (reserving (start .rv32) 0) = .next t := ⟨_, rfl⟩
/-- One instruction of each kind of flags. -/
theorem witness_StickyFlags :
    ((∃ t, exec (.kadd16 0 1 2) (overflowed (start .rv32)) = .next t) ∧
      (Instr.kadd16 0 1 2).flagEffect ≠ .other ∧ (Instr.kadd16 0 1 2).flagEffect ≠ .accrued) ∧
    (∃ t, exec (.feqS 1 2 3) (start .rv32) = .next t) ∧ (Instr.feqS 1 2 3).flagEffect ≠ .other ∧
      (Instr.feqS 1 2 3).flagEffect ≠ .overflow :=
  ⟨⟨⟨_, rfl⟩, by decide, by decide⟩, ⟨_, rfl⟩, by decide, by decide⟩
theorem witness_FixedState : ∃ t, exec (.fld 1 2 0) (start .rv32) = .next t := ⟨_, rfl⟩
theorem witness_StepRunsDecoded_full :
    let s := (start .rv32).withFetchWord 32 0x002081B3
    s.refusedMark = none ∧ s.exited = false ∧ s.pick = some s ∧ (s.pcVal s.bits).getLsbD 0 = false ∧
      (s.mem.load (s.pcVal s.bits) 2).extractLsb' 0 2 = 3 ∧
      decode s.params.xlen s.params.openRows (.full (s.mem.load (s.pcVal s.bits + 2) 2 ++ s.mem.load (s.pcVal s.bits) 2)) =
        .ok (.add 3 1 2) := ⟨rfl, rfl, rfl, by decide +kernel, by decide +kernel, rfl⟩
theorem witness_StepRunsDecoded_half :
    let s := (start .rv32).withFetchWord 16 0x0001
    s.refusedMark = none ∧ s.exited = false ∧ s.pick = some s ∧ (s.mem.load (s.pcVal s.bits) 2).extractLsb' 0 2 ≠ 3 ∧
      s.params.admits (s.pcVal s.bits).toNat 2 .fetch = true ∧
      decode s.params.xlen s.params.openRows (.half (s.mem.load (s.pcVal s.bits) 2)) = .ok .cNop :=
  ⟨rfl, rfl, rfl, by decide +kernel, by decide +kernel, rfl⟩
/-- An instruction that is refused as well as one that goes on. -/
theorem witness_StepRunsDecoded_outcomes :
    (∃ u, exec .cNop (start .rv32) = .next u) ∧
    exec (.csrrs 3 0x7C0 0) (start .rv32) = .refused .unknownCsr := ⟨⟨_, rfl⟩, rfl⟩
theorem witness_StepRunsDecoded_plain :
    (start .rv64).hart.status = .running ∧ (start .rv64).parked = [] ∧ (start .rv64).schedule = [] ∧
    (start .rv64).hart.te = false := by decide +kernel
theorem witness_StepStops_end :
    ({ start .rv32 with refusedMark := some .oddPc } : State).refusedMark = some .oddPc ∧
    (let s := ((start .rv32).takeAnswer .exit)
     s.refusedMark = none ∧ s.exited = true) ∧
    (let s := (start .rv32).nowStuck
     s.refusedMark = none ∧ s.exited = false ∧ ∀ h ∈ s.hart :: s.parked, h.status ≠ .running) := by decide +kernel
theorem witness_StepStops_fetch :
    let s := atPc (start .rv32) 0x101
    s.pick = some s ∧ (s.pcVal s.bits).getLsbD 0 = true ∧ (start .rv32).pick = some (start .rv32) ∧
      (refusing (start .rv32) .fetch).pick = some (refusing (start .rv32) .fetch) ∧
      (refusing (start .rv32) .fetch).params.admits 0x100 2 .fetch = false :=
  ⟨rfl, by decide +kernel, rfl, rfl, by decide +kernel⟩
/-- The second halfword alone refused, which ends the fetch of a 32-bit word and not that of a 16-bit one. -/
theorem witness_StepStops_second :
    let p : Params := { Params.reset with refusals := [⟨0x102, 0x102, 2, .fetch⟩] }
    p.admits 0x100 2 .fetch = true ∧ p.admits 0x102 2 .fetch = false := by decide +kernel
theorem witness_StepStops_decode :
    decode .rv64 [] (.full 0x30200073) = .error .illegal ∧ decode .rv64 [] (.half 0x8000) = .error .unmatchedHalf ∧
    decode .rv64 [] (.full 0xFE000077) = .error .packedSpace ∧ decode .rv64 [] (.full 0x0000000B) = .error .customSpace :=
  ⟨rfl, rfl, rfl, rfl⟩
theorem witness_EncodingsRejectOthers :
    rowsFull[0]?.map (·.mnemonic) = some "lui" ∧ rowsFull[259]?.isSome = true ∧ rowsCompressed[41]?.map (·.keptOn .rv64) = some true :=
  by decide +kernel
theorem witness_EncodeDecode :
    (Instr.jal 31 0xFFFFF).wellFormed = true ∧ (Instr.jal 31 0xFFFFF).existsOn .rv32 = true ∧
    encode (.jal 31 0xFFFFF) = some (.full 0xFFFFFFEF) := by decide +kernel

theorem reset_inv : State.reset.Inv where
  memWf := by decide
  memInside := by decide
  resvWf := by decide
  resvInside := by decide
  hart := by
    constructor <;> (try unfold fitsIn) <;> (first | decide | skip)
  parked := fun _ h => nomatch h

/-- InvKept: the launch state is sound and has a next state, and so has one that runs an instruction. -/
theorem witness_InvKept : State.reset.Inv ∧ (∃ t, step State.reset = .next t) ∧
    ∃ t, step (State.reset.withFetchWord 32 0x002081B3) = .next t := ⟨reset_inv, ⟨_, rfl⟩, ⟨_, rfl⟩⟩

end

end Sys2Proof.Tests
end

section
/-! What each instruction keeps: one `May` per instruction, the relation `Keeps` for every row of the table, and the
table-execute flag set aside for exec.it, the one instruction that sets and clears it. -/

namespace Sys2Proof

/-- The instructions that may change the reservation set (spec/44_atomic.md R178, R179); exec.it may run one of them. -/
def Instr.changesResv : Instr → Bool
  | .lrW _ _ _ _ | .lrD _ _ _ _ | .scW _ _ _ _ _ | .scD _ _ _ _ _ | .execIt _ => true
  | _ => false

/-- What an instruction may change beside registers, memory and the pc. -/
def Instr.may (i : Instr) : Machine.May where
  resv := i.changesResv
  csr := i.flagEffect == .other
  flags := i.flagEffect == .accrued
  ov := i.flagEffect == .overflow

namespace Machine

/-- A crossed packed instruction neither of whose lane operations clamps. -/
theorem lanesX_keeps_ov {may : May} {s : State} {rd rs1 rs2 : Reg} {w : Nat} {hi lo : BitVec w → BitVec w → BitVec w × Bool}
    (hhi : ∀ a b, (hi a b).2 = false) (hlo : ∀ a b, (lo a b).2 = false) :
    OnNext (Keeps may s) (lanesX w rd rs1 rs2 s hi lo) :=
  packed_keeps_ov fun i => by
    split
    · exact hhi _ _
    · exact hlo _ _

/-- Every instruction but exec.it keeps what its shape keeps. -/
theorem exec_keeps_of_ne_execIt (i : Instr) (s : State) (hi : ∀ index, i ≠ .execIt index) :
    OnNext (Keeps i.may s) (exec i s) := by
  cases i <;> dsimp only [exec]
  case execIt index => exact absurd rfl (hi index)
  -- base integer
  case lui | auipc => exact .naming (Keeps.rfl.intoXI (Nat.le_refl _))
  case jal rd off => exact .naming (.linking fun _ => Keeps.rfl.intoXThen (Nat.le_refl _) fun hs => hs.target off)
  case jalr => exact .naming (.linking fun _ => Keeps.rfl.intoXThen (Nat.le_refl _) fun _ => clearBit0_even _)
  case beq | bne | blt | bge | bltu | bgeu => exact branchOp_keeps
  case lb | lh | lw | lbu | lhu => exact loadOp_keeps
  case lwu | ld => exact .onlyOn loadOp_keeps
  case sb | sh | sw => exact storeOp_keeps
  case sd => exact .onlyOn storeOp_keeps
  case addi | slti | sltiu | xori | ori | andi => exact immOp_keeps
  case slli | srli | srai => exact shiftImmOp_keeps
  case add | sub | slt | sltu | xor | or | and => exact regOp_keeps
  case sll | srl | sra => exact shiftRegOp_keeps
  case addiw | slliw | srliw | sraiw => exact wordImmOp_keeps
  case addw | subw | sllw | srlw | sraw => exact wordRegOp_keeps
  case fence | fenceI => exact .next (Keeps.rfl.proceed4 (Nat.le_refl _))
  case ecall => exact .next (takeAnswer_keeps _)
  case ebreak | cEbreak => exact .next (Keeps.rfl.halt _)
  case csrrw | csrrs | csrrc | csrrwi | csrrsi | csrrci => exact .naming (csrAccess_keeps rfl)
  -- compressed
  case cAddi4spn | cAddi16sp | cAndi => exact .next (Keeps.rfl.intoXC (Nat.le_refl _))
  case cAddi | cLi | cLui | cMv | cAdd => exact .naming (.next (Keeps.rfl.intoXC (Nat.le_refl _)))
  case cAddiw => exact .onlyOn (.naming (.next (Keeps.rfl.intoXC (Nat.le_refl _))))
  case cNop => exact .next (Keeps.rfl.proceed2 (Nat.le_refl _))
  case cSub | cXor | cOr | cAnd => exact cRegOp_keeps
  case cSubw | cAddw => exact cWordOp_keeps
  case cSrli | cSrai | cSlli => exact cShiftOp_keeps
  case cBeqz | cBnez => exact cBranchOp_keeps
  case cLw | cLwsp => exact cLoad_keeps
  case cLd | cLdsp => exact .onlyOn cLoad_keeps
  case cSw | cSwsp => exact cStore_keeps
  case cSd | cSdsp => exact .onlyOn cStore_keeps
  case cFld | cFldsp => exact cFloatLoad_keeps
  case cFlw | cFlwsp => exact .onlyOn cFloatLoad_keeps
  case cFsd | cFsdsp => exact cFloatStore_keeps
  case cFsw | cFswsp => exact .onlyOn cFloatStore_keeps
  case cJ off => exact .next (Keeps.rfl.retire (Nat.le_refl _) fun hs => hs.target off)
  case cJr => exact .naming (.next (Keeps.rfl.retire (Nat.le_refl _) fun _ => clearBit0_even _))
  case cJal off => exact .onlyOn (.next (Keeps.rfl.intoXThen (Nat.le_refl _) fun hs => hs.target off))
  case cJalr => exact .naming (.next (Keeps.rfl.intoXThen (Nat.le_refl _) fun _ => clearBit0_even _))
  -- multiply, divide, atomic
  case mul | mulh | mulhsu | mulhu | div | divu | rem | remu => exact mulOp_keeps
  case mulw | divw | divuw | remw | remuw => exact mulWordOp_keeps
  case lrW => exact lrOp_keeps rfl
  case lrD => exact .onlyOn (lrOp_keeps rfl)
  case scW => exact scOp_keeps rfl
  case scD => exact .onlyOn (scOp_keeps rfl)
  case amoswapW | amoaddW | amoxorW | amoandW | amoorW | amominW | amomaxW | amominuW | amomaxuW => exact amoOp_keeps
  case amoswapD | amoaddD | amoxorD | amoandD | amoorD | amominD | amomaxD | amominuD | amomaxuD =>
    exact .onlyOn amoOp_keeps
  -- floating point
  case flw | fld | flh => exact floatLoad_keeps
  case fsw | fsd | fsh => exact floatStore_keeps
  case fmaddS | fmsubS | fnmsubS | fnmaddS | fmaddD | fmsubD | fnmsubD | fnmaddD | fmaddH | fmsubH | fnmsubH | fnmaddH =>
    exact floatFma_keeps rfl
  case faddS | fsubS | fmulS | fdivS | faddD | fsubD | fmulD | fdivD | faddH | fsubH | fmulH | fdivH =>
    exact floatArith_keeps rfl
  case fsqrtS | fsqrtD | fsqrtH => exact floatSqrt_keeps rfl
  case fsgnjS | fsgnjnS | fsgnjxS | fsgnjD | fsgnjnD | fsgnjxD | fsgnjH | fsgnjnH | fsgnjxH => exact floatSign_keeps
  case fminS | fmaxS | fminD | fmaxD | fminH | fmaxH => exact floatMinMax_keeps rfl
  case feqS | fltS | fleS | feqD | fltD | fleD | feqH | fltH | fleH => exact floatCompare_keeps rfl
  case fclassS | fclassD | fclassH => exact floatClass_keeps
  case fcvtWS | fcvtWuS | fcvtWD | fcvtWuD | fcvtWH | fcvtWuH => exact floatToInt_keeps rfl
  case fcvtLS | fcvtLuS | fcvtLD | fcvtLuD | fcvtLH | fcvtLuH => exact .onlyOn (floatToInt_keeps rfl)
  case fcvtSW | fcvtSWu | fcvtDW | fcvtDWu | fcvtHW | fcvtHWu => exact floatFromInt_keeps rfl
  case fcvtSL | fcvtSLu | fcvtDL | fcvtDLu | fcvtHL | fcvtHLu => exact .onlyOn (floatFromInt_keeps rfl)
  case fcvtSD | fcvtDS | fcvtSH | fcvtHS | fcvtDH | fcvtHD => exact floatConvert_keeps rfl
  case fmvXW | fmvXH => exact floatToX_keeps
  case fmvXD => exact .onlyOn floatToX_keeps
  case fmvWX | fmvHX => exact floatFromX_keeps
  case fmvDX => exact .onlyOn floatFromX_keeps
  case fcvtSBf16 => exact .next (Keeps.rfl.intoF4 (Nat.le_refl _))
  case fcvtBf16S => exact .rounding fun _ => (Keeps.rfl.accrue rfl _).intoF4 (Nat.le_refl _)
  -- packed SIMD: no lane clamps
  case add16 | sub16 | radd16 | rsub16 | uradd16 | ursub16 | add8 | sub8 | radd8 | rsub8 | uradd8 | ursub8
      | cmpeq16 | scmplt16 | scmple16 | ucmplt16 | ucmple16 | cmpeq8 | scmplt8 | scmple8 | ucmplt8 | ucmple8
      | smin16 | umin16 | smax16 | umax16 | smin8 | umin8 | smax8 | umax8
      | sra16 | sra16U | srl16 | srl16U | sll16 | srai16 | srai16U | srli16 | srli16U | slli16 =>
    exact packed_keeps_ov fun _ => rfl
  case cras16 | rcras16 | urcras16 | crsa16 | rcrsa16 | urcrsa16 =>
    exact lanesX_keeps_ov (fun _ _ => rfl) fun _ _ => rfl
  -- packed SIMD: a lane may clamp
  case kadd16 | ukadd16 | ksub16 | uksub16 | kadd8 | ukadd8 | ksub8 | uksub8 | kcras16 | ukcras16 | kcrsa16 | ukcrsa16
      | ksll16 | kslli16 | kslra16 | kslra16U | khm16 | khmx16 | khm8 | khmx8 | sclip16 | uclip16 | kabs16 | kabs8 =>
    exact packed_keeps rfl
  -- load and store multiple
  case lmw => exact lsmOp_keeps fun _ rs a _ hgo => lmwFrom_keeps hgo rs a _ Keeps.rfl
  case smw => exact lsmOp_keeps fun _ rs a _ hgo => smwFrom_keeps hgo rs a _ Keeps.rfl

/-! ## exec.it -/

/-- Both states with their table-execute flag set to one value: nothing that is kept but the flag looks at it. -/
theorem Keeps.setTe {may : May} {s t : State} (h : Keeps may s t) (b : Bool) : Keeps may (s.setTe b) (t.setTe b) :=
  { h with
    te := Eq.refl _
    clean := fun hs => ⟨(h.clean ⟨hs.inv⟩).inv⟩ }

/-- What exec.it may change takes in what any instruction may. -/
theorem Keeps.toExecIt {may : May} {s t : State} (h : Keeps may s t) (index : BitVec 16) :
    Keeps (Instr.execIt index).may s t :=
  { h with
    resvSame := nofun
    fflags := nofun
    fflagsSame := nofun
    ucode := nofun
    ucodeSame := nofun
    csrSame := nofun }

theorem OnNext.mono {p q : State → Prop} {r : Result} (h : OnNext p r) (hpq : ∀ t, p t → q t) : OnNext q r := by
  cases r with
  | next t => exact hpq t h
  | fault _ => trivial
  | refused _ => trivial

theorem OnNext.clearTe {p : State → Prop} {r : Result} (h : OnNext (fun t => p (t.setTe false)) r) :
    OnNext p (Machine.clearTe r) := by
  cases r with
  | next _ => exact h
  | fault _ => trivial
  | refused _ => trivial

/-- A table entry is refused, or runs as the instruction does elsewhere, and is no exec.it (spec/48_andes_vendor.md R379). -/
theorem runInner_cases (i : Instr) (s : State) :
    runInner i s = .refused .tableEntry ∨ (runInner i s = exec i s ∧ ∀ index, i ≠ .execIt index) := by
  cases i
  case cAddi4spn | cFld | cLw | cFlw | cLd | cFsd | cSw | cFsw | cSd | cNop | cAddi | cJal | cAddiw | cLi | cAddi16sp | cLui
      | cSrli | cSrai | cAndi | cSub | cXor | cOr | cAnd | cSubw | cAddw | cJ | cBeqz | cBnez | cSlli | cFldsp | cLwsp
      | cFlwsp | cLdsp | cJr | cMv | cEbreak | cJalr | cAdd | cFsdsp | cSwsp | cFswsp | cSdsp | execIt =>
    exact .inl rfl
  all_goals exact .inr ⟨rfl, nofun⟩

/-- The instruction in a table entry keeps what exec.it keeps. -/
theorem runInner_keeps (i : Instr) (s : State) (index : BitVec 16) :
    OnNext (Keeps (Instr.execIt index).may s) (runInner i s) := by
  obtain h | ⟨h, hi⟩ := runInner_cases i s
  · rw [h]; trivial
  · rw [h]; exact (exec_keeps_of_ne_execIt i s hi).mono fun _ ht => ht.toExecIt index

theorem execExecIt_keeps (index : BitVec 16) (s : State) :
    OnNext (fun t => Keeps (Instr.execIt index).may (s.setTe false) (t.setTe false)) (execExecIt index s) := by
  have inner (p : Parcel) : OnNext (Keeps (Instr.execIt index).may (s.setTe true)) ((s.setTe true).decodeRun runInner p) := by
    unfold State.decodeRun
    split
    · exact runInner_keeps _ _ index
    · exact rejected_keeps _ _
  unfold execExecIt
  dsimp only
  split
  · exact Keeps.rfl.stuck.setTe false
  · split
    · trivial
    · refine .clearTe ?_
      exact (inner _).mono fun _ h => h.setTe false

/-- Every instruction keeps what its `May` says, the table-execute flag of both states set aside. -/
theorem exec_keeps (i : Instr) (s : State) :
    OnNext (fun t => Keeps i.may (s.setTe false) (t.setTe false)) (exec i s) := by
  by_cases hi : ∃ index, i = .execIt index
  · obtain ⟨index, rfl⟩ := hi
    exact execExecIt_keeps index s
  · exact (exec_keeps_of_ne_execIt i s fun index h => hi ⟨index, h⟩).mono fun _ h => h.setTe false

theorem exec_next_keeps {i : Instr} {s t : State} (h : exec i s = .next t) : Keeps i.may (s.setTe false) (t.setTe false) := by
  have hk := exec_keeps i s
  rwa [h] at hk

end Machine

end Sys2Proof
end

section
/-! The statements of spec/00_scope.md: what no instruction changes, and where a step runs no instruction. -/

namespace Sys2Proof.Machine

/-- Settles O53, from what every instruction keeps. -/
theorem fixedState : Obligations.FixedState := by
  intro i s t h
  have hk := exec_next_keeps h
  exact ⟨hk.params, hk.parked, hk.schedule, hk.refusedMark, hk.id, hk.upper, hk.pc⟩

/-! ## The scheduler and the fetch -/

/-- The scheduler gives no hart where none runs. -/
theorem pick_eq_none {s : State} (h : ∀ p ∈ s.hart :: s.parked, p.status ≠ .running) : s.pick = none := by
  have hc : s.candidates = [] := by
    refine List.filterMap_eq_nil_iff.mpr fun q hq => if_neg fun hr => ?_
    exact h q.1 (List.fst_mem_of_mem_zipIdx hq) (eq_of_beq hr)
  simp only [State.pick, hc]

theorem isFull_eq_true {h : BitVec 16} (hl : h.extractLsb' 0 2 = 3) : isFull h = true := beq_iff_eq.mpr hl

theorem isFull_eq_false {h : BitVec 16} (hl : h.extractLsb' 0 2 ≠ 3) : isFull h = false := beq_eq_false_iff_ne.mpr hl

section
variable {s : State} {run : Instr → State → Result}

theorem fetchRun_odd (ho : (s.pcVal s.bits).getLsbD 0 = true) : s.fetchRun run = .refused .oddPc := by
  simp only [State.fetchRun, ho, if_true]

variable (ho : (s.pcVal s.bits).getLsbD 0 = false)
include ho

theorem fetchRun_low_refused (ha : s.params.admits (s.pcVal s.bits).toNat 2 .fetch = false) : s.fetchRun run = .next s.stuck := by
  simp only [State.fetchRun, ho, ha, Bool.not_false, Bool.false_eq_true, if_true, if_false]

theorem fetchRun_high_refused (ha : s.params.admits (s.pcVal s.bits).toNat 2 .fetch = true)
    (hl : (s.mem.load (s.pcVal s.bits) 2 : BitVec 16).extractLsb' 0 2 = 3)
    (hb : s.params.admits (s.pcVal s.bits + 2).toNat 2 .fetch = false) : s.fetchRun run = .next s.stuck := by
  simp only [State.fetchRun, ho, ha, isFull_eq_true hl, hb, Bool.not_true, Bool.not_false, Bool.false_eq_true, if_true, if_false]

/-- A fetch whose requests are admitted decodes the parcel; the second request is made for a 32-bit word alone. -/
theorem fetchRun_admitted (ha : s.params.admits (s.pcVal s.bits).toNat 2 .fetch = true)
    (hb : (s.mem.load (s.pcVal s.bits) 2 : BitVec 16).extractLsb' 0 2 = 3 →
      s.params.admits (s.pcVal s.bits + 2).toNat 2 .fetch = true) :
    s.fetchRun run = s.decodeRun run
      (if (s.mem.load (s.pcVal s.bits) 2 : BitVec 16).extractLsb' 0 2 = 3 then
        .full ((s.mem.load (s.pcVal s.bits + 2) 2 : BitVec 16) ++ (s.mem.load (s.pcVal s.bits) 2 : BitVec 16))
      else .half (s.mem.load (s.pcVal s.bits) 2)) := by
  by_cases hl : (s.mem.load (s.pcVal s.bits) 2 : BitVec 16).extractLsb' 0 2 = 3
  · simp only [State.fetchRun, ho, ha, isFull_eq_true hl, hb hl, Bool.not_true, Bool.false_eq_true, if_false, if_pos hl]
  · simp only [State.fetchRun, ho, ha, isFull_eq_false hl, Bool.not_true, Bool.not_false, Bool.false_eq_true, if_true,
      if_false, if_neg hl]

end

theorem decodeRun_of_error {s : State} {run : Instr → State → Result} {p : Parcel} {x : Reject}
    (h : decode s.params.xlen s.params.openRows p = .error x) : s.decodeRun run p = s.rejected x := by
  simp only [State.decodeRun, h]

/-- Settles O55: the clauses in the order in which a step meets them. -/
theorem stepStops : Obligations.StepStops := by
  refine ⟨fun s r hm => ?_, fun s hm he => ?_, fun s hm he hr => ?_, fun s t hm he ht => ?_⟩
  · simp only [step, State.stepWith, hm]
  · simp only [step, State.stepWith, hm, he, if_true]
  · simp only [step, State.stepWith, hm, he, Bool.false_eq_true, if_false, pick_eq_none hr]
  · dsimp only
    rw [step_of_pick hm he ht]
    refine ⟨fun ho => ?_, fun ho ha => ?_, fun ho ha hl hb => ?_, fun ho ha hb => ?_⟩
    · rw [fetchRun_odd ho]; rfl
    · rw [fetchRun_low_refused ho ha]; rfl
    · rw [fetchRun_high_refused ho ha hl hb]; rfl
    · rw [fetchRun_admitted ho ha hb]
      exact ⟨fun hd => congrArg t.recording (decodeRun_of_error hd), fun hd => congrArg t.recording (decodeRun_of_error hd),
        fun hd => congrArg t.recording (decodeRun_of_error hd), fun hd => congrArg t.recording (decodeRun_of_error hd)⟩

end Sys2Proof.Machine
end

section
/-! The statements of spec/10_state.md: the launch state, the general registers, the CSR file, the flags, REDUCED_ABI, and the
invariant that every step keeps. -/

namespace Sys2Proof.Machine

/-! ## The invariant -/

theorem OnNext.of_forall {p : State → Prop} (h : ∀ t, p t) (r : Result) : OnNext p r := by
  cases r with
  | next t => exact h t
  | fault _ => trivial
  | refused _ => trivial

/-- What keeps everything else, the table-execute flag with it, keeps the invariant. -/
theorem Keeps.inv {may : May} {s t : State} (hk : Keeps may s t) (hs : s.Inv) : t.Inv :=
  (hk.clean hs.toClean).toInv (hk.te.trans hs.hart.teClear)

/-- No instruction leaves the table-execute flag set: exec.it clears it again, and no other changes it
(spec/48_andes_vendor.md R376). -/
theorem exec_teClear (i : Instr) (s : State) (hte : s.hart.te = false) : OnNext (fun t => t.hart.te = false) (exec i s) := by
  by_cases hi : ∃ index, i = .execIt index
  · obtain ⟨index, rfl⟩ := hi
    dsimp only [exec, execExecIt]
    split
    · exact hte
    · split
      · trivial
      · exact .clearTe (.of_forall (fun t => t.setTe_te false) _)
  · exact (exec_keeps_of_ne_execIt i s fun index h => hi ⟨index, h⟩).mono fun _ hk => hk.te.trans hte

/-- Every instruction keeps the invariant. -/
theorem exec_next_inv {i : Instr} {s t : State} (hs : s.Inv) (h : exec i s = .next t) : t.Inv := by
  have hte := exec_teClear i s hs.hart.teClear
  rw [h] at hte
  have hc : (t.setTe false).Clean := (exec_next_keeps h).clean ⟨hs.toClean.inv⟩
  exact State.Clean.toInv ⟨hc.inv⟩ hte

/-- The fetch keeps the invariant, whatever it ends in. -/
theorem fetchRun_next_inv {s t : State} (hs : s.Inv) (h : s.fetchRun exec = .next t) : t.Inv := by
  obtain e | e | ⟨_, _, _, e⟩ | ⟨_, x, _, e⟩ := fetchRun_cases s exec <;> rw [e] at h
  · cases h
  · cases h
    exact (Keeps.rfl (may := {})).stuck.inv hs
  · exact exec_next_inv hs h
  · have hk := rejected_keeps (may := {}) s x
    rw [h] at hk
    exact hk.inv hs

/-- Settles O60: the hart that the scheduler gives is sound, and its fetch, its instruction and a recorded refusal keep it. -/
theorem invKept : Obligations.InvKept := by
  intro s t hs h
  obtain ⟨_, _, u, hu, ht | ⟨r, _, rfl⟩⟩ := step_next h
  · exact fetchRun_next_inv (hs.pick hu) ht
  · exact (hs.pick hu).refuse r

theorem fitsIn_zero (n : Nat) : fitsIn n 0 := Nat.two_pow_pos n

theorem Hart.reset_sound : Hart.Sound 64 Hart.reset where
  pcEven := by decide
  pcFits := Hart.reset.pc.isLt
  teClear := rfl
  zeroReg := by decide
  xFits r := (Hart.reset.x[r.toNat]'r.isLt).isLt
  cycleFits := fitsIn_zero 64
  timeFits := fitsIn_zero 64
  instretFits := fitsIn_zero 64
  uitbFits := fitsIn_zero 64
  ucodeFits := fitsIn_zero 64
  mvendoridFits := fitsIn_zero 64
  marchidFits := fitsIn_zero 64
  mimpidFits := fitsIn_zero 64
  mhartidFits := fitsIn_zero 64

/-- Settles O59: memory and the reservation set are empty and the one hart is sound. -/
theorem invAtReset : Obligations.InvAtReset where
  memWf := rfl
  memInside := nofun
  resvWf := rfl
  resvInside := nofun
  hart := Hart.reset_sound
  parked := nofun

/-- Settles O1: each field is read off the launch state. -/
theorem resetState : Obligations.ResetState := ⟨rfl, rfl, rfl, rfl, rfl, nofun⟩

/-! ## The general registers -/

theorem State.writeX_zero {n : Nat} (s : State) (v : BitVec n) : s.writeX 0 v = s := if_pos rfl

/-- Settles O2, from the laws of a register read after a register write. -/
theorem registerZeroAndNextPc : Obligations.RegisterZeroAndNextPc := by
  refine ⟨fun s n v => ⟨s.readX_zero n, s.writeX_zero v⟩, fun s r v hr => ?_,
    fun s r q v hq => s.readX_writeX_ne r q v 64 hq, fun s n l => rfl⟩
  rw [s.readX_writeX_same, if_neg hr, BitVec.setWidth_eq]

/-! ## The CSR file (spec/10_state.md R17, R18, R19) -/

section csr
variable {n : Nat}

/-- A value of n bits is stored in a word and read back whole. -/
theorem setWidth_word_setWidth (hn : n ≤ 64) (v : BitVec n) : (v.setWidth 64).setWidth n = v := by
  rw [BitVec.setWidth_setWidth_of_le _ hn, BitVec.setWidth_eq]

/-- The low byte of the two parts that a read of fcsr puts together. -/
theorem setWidth_byte_or_high (hn : 8 ≤ n) (x : BitVec 8) (d : BitVec n) :
    (x.setWidth n ||| (d >>> 8) <<< 8).setWidth 8 = x := by
  ext i hi
  simp [hi, show i < n by omega]

/-- The bits above the low byte of these two parts. -/
theorem byte_or_high_ushiftRight (x : BitVec 8) (d : BitVec n) : (x.setWidth n ||| (d >>> 8) <<< 8) >>> 8 = d >>> 8 := by
  ext i hi
  by_cases h : 8 + i < n
  · simp [h]
  · simp [h, BitVec.getLsbD_of_ge d (8 + i) (Nat.not_lt.mp h)]

theorem ushiftRight_byte_eq_zero_iff (v : BitVec n) : v >>> 8 = 0 ↔ v.toNat < 2 ^ 8 := by
  rw [← BitVec.toNat_inj, BitVec.toNat_ushiftRight, Nat.shiftRight_eq_div_pow]
  simp [Nat.div_eq_zero_iff]

theorem setWidth_byte_of_lt {v : BitVec n} (h : v.toNat < 2 ^ 8) : (v.setWidth 8).setWidth n = v := by
  apply BitVec.eq_of_toNat_eq
  rw [BitVec.toNat_setWidth, BitVec.toNat_setWidth, Nat.mod_eq_of_lt h, Nat.mod_eq_of_lt v.isLt]

variable (s : State)

/-- fcsr with its upper bits closed reads as frm and fflags, zero above. -/
theorem State.csrValue_fcsr_closed (h : s.hart.fcsrOpen = false) :
    s.csrValue n .fcsr = (s.hart.frm ++ s.hart.fflags).setWidth n := by
  simp [State.csrValue, h]

/-- fcsr with its upper bits open reads as frm and fflags under a draw. -/
theorem State.csrValue_fcsr_open (h : s.hart.fcsrOpen = true) :
    s.csrValue n .fcsr = (s.hart.frm ++ s.hart.fflags).setWidth n ||| (s.drawn.setWidth n >>> 8) <<< 8 := by
  simp [State.csrValue, h]

theorem State.csrValue_fcsr_low (hn : 8 ≤ n) : (s.csrValue n .fcsr).setWidth 8 = s.hart.frm ++ s.hart.fflags := by
  cases h : s.hart.fcsrOpen
  · rw [s.csrValue_fcsr_closed h, BitVec.setWidth_setWidth_of_le _ hn, BitVec.setWidth_eq]
  · rw [s.csrValue_fcsr_open h, setWidth_byte_or_high hn]

variable (v : BitVec n)

/-- A write to fcsr splits its low byte into frm and fflags (R17, R19). -/
theorem State.csrWrite_fcsr_fields (hn : 8 ≤ n) :
    (s.csrWrite .fcsr v).hart.frm ++ (s.csrWrite .fcsr v).hart.fflags = v.setWidth 8 := by
  show v.extractLsb' 5 3 ++ v.setWidth 5 = v.setWidth 8
  rw [BitVec.setWidth_eq_extractLsb' (by omega : 5 ≤ n), BitVec.setWidth_eq_extractLsb' hn]
  exact BitVec.extractLsb'_append_extractLsb'_eq_extractLsb' rfl

/-- A write that has the upper bits of fcsr 0 is read back whole (R18). -/
theorem State.csrValue_csrWrite_fcsr_of_lt (hn : 8 ≤ n) (h : v.toNat < 2 ^ 8) : (s.csrWrite .fcsr v).csrValue n .fcsr = v := by
  have hc : (s.csrWrite .fcsr v).hart.fcsrOpen = false := bne_eq_false_iff_eq.mpr ((ushiftRight_byte_eq_zero_iff v).mpr h)
  rw [State.csrValue_fcsr_closed _ hc, s.csrWrite_fcsr_fields v hn, setWidth_byte_of_lt h]

/-- After any other write the upper bits of fcsr read as the next draw (R18). -/
theorem State.csrValue_csrWrite_fcsr_of_le (h : 2 ^ 8 ≤ v.toNat) :
    (s.csrWrite .fcsr v).csrValue n .fcsr >>> 8 = (Config.draw s.draws).setWidth n >>> 8 := by
  have hv : v >>> 8 ≠ 0 := fun e => Nat.not_lt.mpr h ((ushiftRight_byte_eq_zero_iff v).mp e)
  have ho : (s.csrWrite .fcsr v).hart.fcsrOpen = true := bne_iff_ne.mpr hv
  rw [State.csrValue_fcsr_open _ ho, byte_or_high_ushiftRight]
  rfl

/-- The CSRs that are plain storage (R17). -/
def Csr.plain : List Csr := [.uitb, .ucode, .mvendorid, .marchid, .mimpid, .mhartid]

/-- The counters, whose reads are draws (R18). -/
def Csr.counters : List Csr := [.cycle, .time, .instret, .cycleh, .timeh, .instreth]

theorem State.csrValue_csrWrite_plain (hn : n ≤ 64) {c : Csr} (hc : c ∈ Csr.plain) : (s.csrWrite c v).csrValue n c = v := by
  simp only [Csr.plain, List.mem_cons, List.not_mem_nil, or_false] at hc
  rcases hc with rfl | rfl | rfl | rfl | rfl | rfl <;> exact setWidth_word_setWidth hn v

theorem State.csrValue_counter {c : Csr} (hc : c ∈ Csr.counters) : s.csrValue n c = (Config.draw s.draws).setWidth n := by
  simp only [Csr.counters, List.mem_cons, List.not_mem_nil, or_false] at hc
  rcases hc with rfl | rfl | rfl | rfl | rfl | rfl <;> rfl

/-- A write to another CSR leaves a plain one alone. -/
theorem State.csrValue_csrWrite_ne {c d : Csr} (hd : d ∈ Csr.plain) (h : d ≠ c) :
    (s.csrWrite c v).csrValue n d = s.csrValue n d := by
  simp only [Csr.plain, List.mem_cons, List.not_mem_nil, or_false] at hd
  rcases hd with rfl | rfl | rfl | rfl | rfl | rfl <;> cases c <;> trivial

/-- A write to a plain CSR or a counter leaves fcsr alone. -/
theorem State.csrValue_csrWrite_fcsr {c : Csr} (hc : c ∈ Csr.plain ++ Csr.counters) :
    (s.csrWrite c v).csrValue n .fcsr = s.csrValue n .fcsr := by
  simp only [Csr.plain, Csr.counters, List.cons_append, List.nil_append, List.mem_cons, List.not_mem_nil, or_false] at hc
  rcases hc with rfl | rfl | rfl | rfl | rfl | rfl | rfl | rfl | rfl | rfl | rfl | rfl <;> rfl

theorem State.csrWrite_frame (c : Csr) : ∃ h, s.csrWrite c v = { s with hart := h } ∧ h.x = s.hart.x ∧ h.f = s.hart.f ∧
    h.pc = s.hart.pc ∧ h.status = s.hart.status ∧ h.te = s.hart.te :=
  ⟨(s.csrWrite c v).hart, rfl, s.csrWrite_x c v, s.csrWrite_f c v, s.csrWrite_pc c v, s.csrWrite_status c v, s.csrWrite_te c v⟩

end csr

/-- Settles O16, clause by clause from the laws of the CSR file. -/
theorem csrFile : Obligations.CsrFile := by
  intro s v
  have h8 : 8 ≤ s.bits := Nat.le_trans (by decide) s.le_bits
  exact ⟨s.csrValue_fcsr_low h8, rfl, rfl, rfl, rfl,
    (State.csrValue_fcsr_low _ h8).trans (s.csrWrite_fcsr_fields v h8),
    s.csrValue_csrWrite_fcsr_of_lt v h8,
    s.csrValue_csrWrite_fcsr_of_le v,
    fun _ hc => s.csrValue_csrWrite_plain v s.bits_le hc,
    fun _ hc => s.csrValue_counter hc,
    fun _ _ hd h => s.csrValue_csrWrite_ne v hd h,
    fun _ hc => s.csrValue_csrWrite_fcsr v hc,
    s.csrWrite_frame v⟩

/-! ## CSR instructions that stop (spec/10_state.md R17, R20) -/

/-- The numbers of the set (R17). -/
def Csr.numbers : List (BitVec 12) :=
  [0x001, 0x002, 0x003, 0x800, 0x801, 0xC00, 0xC01, 0xC02, 0xC80, 0xC81, 0xC82, 0xF11, 0xF12, 0xF13, 0xF14]

theorem Csr.mem_numbers_of_ofNumber {number : BitVec 12} {c : Csr} (h : Csr.ofNumber number = some c) :
    number ∈ Csr.numbers := by
  unfold Csr.ofNumber at h
  split at h <;> simp_all [Csr.numbers, ← BitVec.toNat_inj]

theorem csrAccess_highHalf {rd : Reg} {number : BitVec 12} {s : State} {u : BitVec s.bits → BitVec s.bits}
    (hn : number ∈ [0xC80, 0xC81, 0xC82]) (hx : s.params.xlen = .rv64) :
    csrAccess rd number s u = .next (s.haltedFor .illegalInstruction) := by
  have hc : ∃ c, Csr.ofNumber number = some c ∧ c.isHighHalf = true := by
    simp only [List.mem_cons, List.not_mem_nil, or_false] at hn
    rcases hn with rfl | rfl | rfl <;> exact ⟨_, rfl, rfl⟩
  obtain ⟨c, hc, hh⟩ := hc
  simp only [csrAccess, hc, hh, hx, beq_self_eq_true, Bool.and_self, if_true, State.halt_eq]

theorem csrAccess_unknown {rd : Reg} {number : BitVec 12} {s : State} {u : BitVec s.bits → BitVec s.bits}
    (hn : number ∉ Csr.numbers) : csrAccess rd number s u = .refused .unknownCsr := by
  have hc : Csr.ofNumber number = none :=
    Option.eq_none_iff_forall_ne_some.mpr fun _ hc => hn (Csr.mem_numbers_of_ofNumber hc)
  simp only [csrAccess, hc]

/-- Settles O17: past the check of its registers each of the six instructions is one access. -/
theorem csrStops : Obligations.CsrStops := by
  intro s rd rs1 uimm number hm i hi
  have hrd : s.mayName [rd] = true := mayName_of_subset hm (by simp)
  have access : ∃ u, exec i s = csrAccess rd number s u := by
    simp only [List.mem_cons, List.not_mem_nil, or_false] at hi
    rcases hi with rfl | rfl | rfl | rfl | rfl | rfl
    iterate 3 exact ⟨_, naming_of_mayName hm⟩
    iterate 3 exact ⟨_, naming_of_mayName hrd⟩
  obtain ⟨u, e⟩ := access
  rw [e]
  exact ⟨csrAccess_highHalf, csrAccess_unknown⟩

/-! ## Flags -/

/-- Settles O52, from what every instruction keeps. -/
theorem stickyFlags : Obligations.StickyFlags := by
  intro i s t h hne
  have hk := exec_next_keeps h
  have hcsr : i.may.csr = false := beq_eq_false_iff_ne.mpr hne
  exact ⟨hk.fflags hcsr, fun hf => hk.fflagsSame hcsr (beq_eq_false_iff_ne.mpr hf), hk.ucode hcsr,
    fun ho => hk.ucodeSame hcsr (beq_eq_false_iff_ne.mpr ho), hk.csrSame hcsr⟩

/-! ## REDUCED_ABI (spec/10_state.md R13) -/

theorem mayName_eq_false {s : State} {rs : List Reg} (ha : s.params.reducedAbi = true) (h : ∃ r ∈ rs, 16 ≤ r.toNat) :
    s.mayName rs = false := by
  obtain ⟨r, hr, hge⟩ := h
  simp only [State.mayName, ha, Bool.not_true, Bool.false_or, List.all_eq_false]
  exact ⟨r, hr, by simpa using hge⟩

/-- On its XLEN an instruction with general-register fields starts with the check of these fields. -/
theorem exec_eq_naming (i : Instr) (s : State) (hx : i.existsOn s.params.xlen = true) (hn : i.xNames ≠ []) :
    ∃ go, exec i s = naming i.xNames s go := by
  cases i
  -- no general-register field
  case fence | fenceI | ecall | ebreak | cAddi4spn | cFld | cLw | cFlw | cLd | cFsd | cSw | cFsw | cSd | cNop | cJal
      | cAddi16sp | cSrli | cSrai | cAndi | cSub | cXor | cOr | cAnd | cSubw | cAddw | cJ | cBeqz | cBnez | cFldsp
      | cFlwsp | cEbreak | cFsdsp | cFswsp | fcvtSD | fcvtDS | fcvtSH | fcvtHS | fcvtDH | fcvtHD | fmaddS | fmsubS
      | fnmsubS | fnmaddS | faddS | fsubS | fmulS | fdivS | fsqrtS | fsgnjS | fsgnjnS | fsgnjxS | fminS | fmaxS
      | fmaddD | fmsubD | fnmsubD | fnmaddD | faddD | fsubD | fmulD | fdivD | fsqrtD | fsgnjD | fsgnjnD | fsgnjxD
      | fminD | fmaxD | fmaddH | fmsubH | fnmsubH | fnmaddH | faddH | fsubH | fmulH | fdivH | fsqrtH | fsgnjH
      | fsgnjnH | fsgnjxH | fminH | fmaxH | fcvtSBf16 | fcvtBf16S | execIt | lmw | smw =>
    exact absurd rfl hn
  -- RV64 alone
  case lwu | ld | sd | addiw | slliw | srliw | sraiw | addw | subw | sllw | srlw | sraw | cAddiw | cLdsp | cSdsp
      | mulw | divw | divuw | remw | remuw | lrD | scD | amoswapD | amoaddD | amoxorD | amoandD | amoorD | amominD
      | amomaxD | amominuD | amomaxuD | fcvtLS | fcvtSL | fcvtLuS | fcvtSLu | fcvtLD | fcvtDL | fcvtLuD | fcvtDLu
      | fmvXD | fmvDX | fcvtLH | fcvtHL | fcvtLuH | fcvtHLu =>
    exact ⟨_, onlyOn_of_eq (eq_of_beq hx).symm⟩
  all_goals exact ⟨_, rfl⟩

theorem lsmOp_refused {rb : Reg} {first last : BitVec 5} {form : LsmForm} {paired : Bool} {s : State} {table : Vector Reg 32}
    {transfer : BitVec s.bits → List Reg → BitVec s.bits → State → (State → State) → State}
    (ht : s.params.lsmTable = some table) (hn : s.mayName (rb :: lsmRegs table first last) = false) :
    lsmOp rb first last form paired s transfer = .refused .reducedAbiRegister := by
  simp only [lsmOp, ht, naming_refused hn]

/-- Settles O49: the check of the named registers comes first and fails. -/
theorem reducedAbiRefuses : Obligations.ReducedAbiRefuses := by
  refine ⟨fun i s hx ha h => ?_, fun s rb first last form paired table ha ht h => ?_⟩
  · have hn : i.xNames ≠ [] := by
      obtain ⟨r, hr, _⟩ := h
      exact List.ne_nil_of_mem hr
    obtain ⟨go, e⟩ := exec_eq_naming i s hx hn
    rw [e, naming_refused (mayName_eq_false ha h)]
  · have hm : s.mayName (rb :: lsmRegs table first last) = false := mayName_eq_false ha h
    exact ⟨lsmOp_refused ht hm, lsmOp_refused ht hm⟩

end Sys2Proof.Machine
end

section
/-! The statements of spec/20_memory.md: wide accesses byte by byte, and the step that runs the instruction fetched. -/

namespace Sys2Proof.Machine

/-! ## Little-endian values (R27, R31, R34) -/

/-- A value of k bytes is given by its bytes. -/
theorem eq_of_bytes {k : Nat} {v w : BitVec (8 * k)} (h : ∀ j, j < k → v.extractLsb' (8 * j) 8 = w.extractLsb' (8 * j) 8) :
    v = w := by
  refine BitVec.eq_of_getLsbD_eq fun i hi => ?_
  have hbit := congrArg (BitVec.getLsbD · (i % 8)) (h (i / 8) (Nat.div_lt_of_lt_mul hi))
  simpa [Nat.mod_lt, Nat.div_add_mod] using hbit

/-- A load gives back what a store put at its address. -/
theorem Memory.load_store_same {n k : Nat} (m : Memory) (a : BitVec n) (v : BitVec (8 * k)) (hk : k ≤ 2 ^ n) :
    (m.store a k v).load a k = v :=
  eq_of_bytes fun j hj => by rw [Memory.load_byte k _ a j hj, Memory.read_store_inside k m a v j hk hj]

/-- Settles O3, from the laws of a byte read after a store. -/
theorem memoryBytes : Obligations.MemoryBytes := by
  intro n k m a v hk
  exact ⟨Memory.load_byte k m a,
    fun j hj => Memory.read_store_inside k m a v j hk hj,
    Memory.read_store_outside k m a v,
    Memory.load_store_same m a v hk,
    Memory.wf_store k m a v⟩

/-! ## The step that runs an instruction (R32) -/

theorem decodeRun_of_ok {s : State} {run : Instr → State → Result} {p : Parcel} {i : Instr}
    (h : decode s.params.xlen s.params.openRows p = .ok i) : s.decodeRun run p = run i s := by
  simp only [State.decodeRun, h]

/-- A step whose fetch ends in the instruction's own result runs the instruction. -/
theorem stepRuns_of_fetchRun {s t : State} {i : Instr} (hm : s.refusedMark = none) (he : s.exited = false)
    (ht : s.pick = some t) (hf : t.fetchRun exec = exec i t) : StepRuns i s t := by
  have hs : step s = t.recording (exec i t) := hf ▸ step_of_pick hm he ht
  have record {r : Result} (h : exec i t = r) : step s = t.recording r := hs.trans (congrArg t.recording h)
  exact ⟨fun _ => record, fun _ => record, fun _ => record⟩

/-- The one hart of a state that runs alone, with no choice scheduled and the table-execute flag clear, is given as it is. -/
theorem pick_single {s : State} (hr : s.hart.status = .running) (hp : s.parked = []) (hc : s.schedule = [])
    (hte : s.hart.te = false) : s.pick = some s := by
  have hcand : s.candidates = [0] := by simp [State.candidates, Hart.isRunning, hr, hp]
  have hsched : ({ s with schedule := s.schedule.tail } : State) = s := by rw [hc, List.tail_nil, ← hc]
  have hflag : s.setHart { s.hart with te := false } = s := by rw [← hte]; rfl
  simp only [State.pick, hcand, hsched]
  rw [hc]
  exact congrArg some hflag

/-- Settles O54: the fetch decodes the halfword or the word, and the step records what the instruction ends in. -/
theorem stepRunsDecoded : Obligations.StepRunsDecoded := by
  refine ⟨fun s t i hm he ht => ?_, fun _ => pick_single⟩
  intro pc low high ho ha
  refine ⟨fun hl hd => stepRuns_of_fetchRun hm he ht ?_, fun hl hb hd => stepRuns_of_fetchRun hm he ht ?_⟩
  · rw [fetchRun_admitted ho ha fun h => absurd h hl, if_neg hl]
    exact decodeRun_of_ok hd
  · rw [fetchRun_admitted ho ha fun _ => hb, if_pos hl]
    exact decodeRun_of_ok hd

end Sys2Proof.Machine
end

section
/-! The statements of spec/30_encoding.md: no word has two rows. -/

namespace Sys2Proof

/-! ## Rows that accept no word together (R44, R45) -/

/-- The fixed bits of two rows differ where both rows fix them. The words are compared as numbers, which the kernel does at
once: a table has tens of thousands of pairs. -/
def Row.fixedDiffer {n : Nat} (r q : Row n) : Bool :=
  !(r.pattern.toNat &&& q.mask.toNat).beq (q.pattern.toNat &&& r.mask.toNat)

/-- The predicate of a row forbids a value that the fixed bits of another give. -/
def Row.forbids {n : Nat} (r q : Row n) : Bool :=
  r.nots.any fun p => p.1 &&& q.mask == p.1 && q.pattern &&& p.1 == p.2

/-- What tells two rows apart: their fixed bits, a predicate, or that each needs another XLEN. -/
def Row.apart {n : Nat} (r q : Row n) : Bool :=
  r.fixedDiffer q || r.forbids q || q.forbids r || (r.xlen.isSome && q.xlen.isSome && r.xlen != q.xlen)

section rows
variable {n : Nat} {r q : Row n} {w : BitVec n} {x : Xlen} {rows : List (Row n)}

theorem Row.accepts_iff : r.accepts w = true ↔ w &&& r.mask = r.pattern ∧ ∀ p ∈ r.nots, w &&& p.1 ≠ p.2 := by
  simp [Row.accepts]

theorem Row.keptOn_of_some {y : Xlen} (hr : r.keptOn x = true) (hy : r.xlen = some y) : y = x := by
  simpa [Row.keptOn, hy] using hr

theorem Row.not_accepts_of_fixedDiffer (h : r.fixedDiffer q = true) (hr : r.accepts w = true) : q.accepts w ≠ true := by
  intro hq
  obtain ⟨hr, -⟩ := Row.accepts_iff.mp hr
  obtain ⟨hq, -⟩ := Row.accepts_iff.mp hq
  have key : r.pattern &&& q.mask = q.pattern &&& r.mask := by
    rw [← hr, ← hq, BitVec.and_assoc, BitVec.and_assoc, BitVec.and_comm r.mask]
  have hnat := congrArg BitVec.toNat key
  rw [BitVec.toNat_and, BitVec.toNat_and] at hnat
  simp [Row.fixedDiffer, hnat] at h

theorem Row.not_accepts_of_forbids (h : r.forbids q = true) (hr : r.accepts w = true) : q.accepts w ≠ true := by
  intro hq
  obtain ⟨-, hnots⟩ := Row.accepts_iff.mp hr
  obtain ⟨hfixed, -⟩ := Row.accepts_iff.mp hq
  simp only [Row.forbids, List.any_eq_true, Bool.and_eq_true, beq_iff_eq] at h
  obtain ⟨p, hp, hmask, hval⟩ := h
  refine hnots p hp ?_
  calc w &&& p.1 = w &&& q.mask &&& p.1 := by rw [BitVec.and_assoc, BitVec.and_comm q.mask, hmask]
    _ = p.2 := by rw [hfixed, hval]

/-- Rows that are told apart accept no word together on one XLEN. -/
theorem Row.not_accepts_of_apart (h : r.apart q = true) (hkr : r.keptOn x = true) (hkq : q.keptOn x = true)
    (hr : r.accepts w = true) : q.accepts w ≠ true := by
  simp only [Row.apart, Bool.or_eq_true, Bool.and_eq_true, bne_iff_ne, Option.isSome_iff_exists] at h
  obtain ((h | h) | h) | ⟨⟨⟨y, hy⟩, z, hz⟩, hne⟩ := h
  · exact Row.not_accepts_of_fixedDiffer h hr
  · exact Row.not_accepts_of_forbids h hr
  · exact fun hq => Row.not_accepts_of_forbids h hq hr
  · rw [hy, hz, Row.keptOn_of_some hkr hy, Row.keptOn_of_some hkq hz] at hne
    exact absurd rfl hne

/-- In a table whose rows are told apart a row that is kept and accepts the word is the first match. -/
theorem firstMatch_of_apart (hrows : rows.Pairwise fun r q => r.apart q = true) (hmem : r ∈ rows)
    (hk : r.keptOn x = true) (ha : r.accepts w = true) : firstMatch x w rows = some r := by
  induction rows with
  | nil => cases hmem
  | cons q rows ih =>
    obtain ⟨hq, hrows⟩ := List.pairwise_cons.mp hrows
    obtain rfl | hmem := List.mem_cons.mp hmem
    · exact if_pos (by rw [hk, ha]; rfl)
    · have hskip : ¬(q.keptOn x && q.accepts w) = true := fun h => by
        obtain ⟨hkq, haq⟩ := Bool.and_eq_true_iff.mp h
        exact Row.not_accepts_of_apart (hq r hmem) hkq hk haq ha
      exact (if_neg hskip).trans (ih hrows hmem)

/-- In such a table no word is accepted at two places. -/
theorem not_accepts_of_index_ne (hrows : rows.Pairwise fun r q => r.apart q = true) {i j : Nat} (hi : rows[i]? = some r)
    (hj : rows[j]? = some q) (hij : i ≠ j) (hkr : r.keptOn x = true) (hkq : q.keptOn x = true) :
    ¬(r.accepts w = true ∧ q.accepts w = true) := by
  rintro ⟨hr, hq⟩
  obtain ⟨hi, rfl⟩ := List.getElem?_eq_some_iff.mp hi
  obtain ⟨hj, rfl⟩ := List.getElem?_eq_some_iff.mp hj
  have happ := List.pairwise_iff_getElem.mp hrows
  obtain hlt | hlt := Nat.lt_or_gt_of_ne hij
  · exact Row.not_accepts_of_apart (happ i j _ _ hlt) hkr hkq hr hq
  · exact Row.not_accepts_of_apart (happ j i _ _ hlt) hkq hkr hq hr

end rows

theorem rowsFull_apart : rowsFull.Pairwise fun r q => r.apart q = true := by decide +kernel

theorem rowsCompressed_apart : rowsCompressed.Pairwise fun r q => r.apart q = true := by decide +kernel

/-- Settles O57: the rows of each length are told apart pair by pair. -/
theorem encodingsRejectOthers : Obligations.EncodingsRejectOthers := fun _ =>
  ⟨fun _ _ _ _ _ hi hj hij => not_accepts_of_index_ne rowsFull_apart hi hj hij,
    fun _ _ _ _ _ hi hj hij => not_accepts_of_index_ne rowsCompressed_apart hi hj hij⟩

end Sys2Proof
end

section
/-! The encoder's formats: every operand is read back from the word, and a mask of the format keeps field by field. -/

namespace Sys2Proof

open BitVec

/-! ## The fields of the 32-bit formats (spec/30_encoding.md R41, R43) -/

section full
variable {rd rs1 rs2 rs3 m1 m2 m3 md f5 m5 : BitVec 5} {f7 m7 op mo : BitVec 7} {f3 mf : BitVec 3} {fmt mt : BitVec 2}
  {imm mi : BitVec 12} {imm20 mu : BitVec 20} {f6 m6 shamt ms : BitVec 6} {aq rl ma mr : BitVec 1} {sel mse : BitVec 8}
  {imm4 m4 fm mfm pred mp succ : BitVec 4}

theorem fields_encR :
    rdOf (encR f7 rs2 rs1 f3 rd op) = rd ∧ rs1Of (encR f7 rs2 rs1 f3 rd op) = rs1 ∧
      rs2Of (encR f7 rs2 rs1 f3 rd op) = rs2 ∧ rmOf (encR f7 rs2 rs1 f3 rd op) = f3 := by
  simp (disch := omega) only [encR, rdOf, rs1Of, rs2Of, rmOf, extractLsb'_append_eq_of_le, extractLsb'_append_eq_of_add_le,
    Nat.reduceSub, extractLsb'_eq_self, true_and]

theorem fields_encR4 :
    rdOf (encR4 rs3 fmt rs2 rs1 f3 rd op) = rd ∧ rs1Of (encR4 rs3 fmt rs2 rs1 f3 rd op) = rs1 ∧
      rs2Of (encR4 rs3 fmt rs2 rs1 f3 rd op) = rs2 ∧ rs3Of (encR4 rs3 fmt rs2 rs1 f3 rd op) = rs3 ∧
      rmOf (encR4 rs3 fmt rs2 rs1 f3 rd op) = f3 := by
  simp (disch := omega) only [encR4, rdOf, rs1Of, rs2Of, rs3Of, rmOf, extractLsb'_append_eq_of_le,
    extractLsb'_append_eq_of_add_le, Nat.reduceSub, extractLsb'_eq_self, true_and]

theorem fields_encI :
    rdOf (encI imm rs1 f3 rd op) = rd ∧ rs1Of (encI imm rs1 f3 rd op) = rs1 ∧ imm12Of (encI imm rs1 f3 rd op) = imm := by
  simp (disch := omega) only [encI, rdOf, rs1Of, imm12Of, extractLsb'_append_eq_of_le, extractLsb'_append_eq_of_add_le,
    Nat.reduceSub, extractLsb'_eq_self, true_and]

theorem fields_encIsh :
    rdOf (encIsh f6 shamt rs1 f3 rd op) = rd ∧ rs1Of (encIsh f6 shamt rs1 f3 rd op) = rs1 ∧
      shamt6Of (encIsh f6 shamt rs1 f3 rd op) = shamt := by
  simp (disch := omega) only [encIsh, rdOf, rs1Of, shamt6Of, extractLsb'_append_eq_of_le, extractLsb'_append_eq_of_add_le,
    Nat.reduceSub, extractLsb'_eq_self, true_and]

theorem fields_encS :
    rs1Of (encS imm rs2 rs1 f3 op) = rs1 ∧ rs2Of (encS imm rs2 rs1 f3 op) = rs2 ∧ immS (encS imm rs2 rs1 f3 op) = imm := by
  simp (disch := omega) only [encS, rs1Of, rs2Of, immS, extractLsb'_append_eq_of_le, extractLsb'_append_eq_of_add_le,
    extractLsb'_append_extractLsb'_eq_extractLsb', Nat.reduceSub, extractLsb'_eq_self, true_and]

theorem fields_encB :
    rs1Of (encB imm rs2 rs1 f3 op) = rs1 ∧ rs2Of (encB imm rs2 rs1 f3 op) = rs2 ∧ offB (encB imm rs2 rs1 f3 op) = imm := by
  simp (disch := omega) only [encB, rs1Of, rs2Of, offB, extractLsb'_append_eq_of_le, extractLsb'_append_eq_of_add_le,
    extractLsb'_append_extractLsb'_eq_extractLsb', Nat.reduceSub, extractLsb'_eq_self, true_and]

theorem fields_encU : rdOf (encU imm20 rd op) = rd ∧ imm20Of (encU imm20 rd op) = imm20 := by
  simp (disch := omega) only [encU, rdOf, imm20Of, extractLsb'_append_eq_of_le, extractLsb'_append_eq_of_add_le,
    Nat.reduceSub, extractLsb'_eq_self, true_and]

theorem fields_encJ : rdOf (encJ imm20 rd op) = rd ∧ offJ (encJ imm20 rd op) = imm20 := by
  simp (disch := omega) only [encJ, rdOf, offJ, extractLsb'_append_eq_of_le, extractLsb'_append_eq_of_add_le,
    extractLsb'_append_extractLsb'_eq_extractLsb', Nat.reduceSub, extractLsb'_eq_self, true_and]

theorem fields_encAmo :
    rdOf (encAmo f5 aq rl rs2 rs1 f3 rd op) = rd ∧ rs1Of (encAmo f5 aq rl rs2 rs1 f3 rd op) = rs1 ∧
      rs2Of (encAmo f5 aq rl rs2 rs1 f3 rd op) = rs2 ∧ aqOf (encAmo f5 aq rl rs2 rs1 f3 rd op) = aq ∧
      rlOf (encAmo f5 aq rl rs2 rs1 f3 rd op) = rl := by
  simp (disch := omega) only [encAmo, rdOf, rs1Of, rs2Of, aqOf, rlOf, extractLsb'_append_eq_of_le,
    extractLsb'_append_eq_of_add_le, Nat.reduceSub, extractLsb'_eq_self, true_and]

theorem fields_encFence :
    rdOf (encFence fm pred succ rs1 f3 rd op) = rd ∧ rs1Of (encFence fm pred succ rs1 f3 rd op) = rs1 ∧
      fmOf (encFence fm pred succ rs1 f3 rd op) = fm ∧ predOf (encFence fm pred succ rs1 f3 rd op) = pred ∧
      succOf (encFence fm pred succ rs1 f3 rd op) = succ := by
  simp (disch := omega) only [encFence, rdOf, rs1Of, fmOf, predOf, succOf, extractLsb'_append_eq_of_le,
    extractLsb'_append_eq_of_add_le, Nat.reduceSub, extractLsb'_eq_self, true_and]

theorem fields_encImm4 :
    rdOf (encImm4 sel imm4 rs1 f3 rd op) = rd ∧ rs1Of (encImm4 sel imm4 rs1 f3 rd op) = rs1 ∧
      imm4uOf (encImm4 sel imm4 rs1 f3 rd op) = imm4 := by
  simp (disch := omega) only [encImm4, rdOf, rs1Of, imm4uOf, extractLsb'_append_eq_of_le, extractLsb'_append_eq_of_add_le,
    Nat.reduceSub, extractLsb'_eq_self, true_and]

/-! A mask is a word of the format: it acts on each field alone. -/

theorem encR_and : encR f7 rs2 rs1 f3 rd op &&& encR m7 m2 m1 mf md mo =
    encR (f7 &&& m7) (rs2 &&& m2) (rs1 &&& m1) (f3 &&& mf) (rd &&& md) (op &&& mo) := by
  simp only [encR, ← and_append]

theorem encR4_and : encR4 rs3 fmt rs2 rs1 f3 rd op &&& encR4 m3 mt m2 m1 mf md mo =
    encR4 (rs3 &&& m3) (fmt &&& mt) (rs2 &&& m2) (rs1 &&& m1) (f3 &&& mf) (rd &&& md) (op &&& mo) := by
  simp only [encR4, ← and_append]

theorem encI_and : encI imm rs1 f3 rd op &&& encI mi m1 mf md mo =
    encI (imm &&& mi) (rs1 &&& m1) (f3 &&& mf) (rd &&& md) (op &&& mo) := by
  simp only [encI, ← and_append]

theorem encIsh_and : encIsh f6 shamt rs1 f3 rd op &&& encIsh m6 ms m1 mf md mo =
    encIsh (f6 &&& m6) (shamt &&& ms) (rs1 &&& m1) (f3 &&& mf) (rd &&& md) (op &&& mo) := by
  simp only [encIsh, ← and_append]

theorem encS_and : encS imm rs2 rs1 f3 op &&& encS mi m2 m1 mf mo =
    encS (imm &&& mi) (rs2 &&& m2) (rs1 &&& m1) (f3 &&& mf) (op &&& mo) := by
  simp only [encS, extractLsb'_and, ← and_append]

theorem encB_and : encB imm rs2 rs1 f3 op &&& encB mi m2 m1 mf mo =
    encB (imm &&& mi) (rs2 &&& m2) (rs1 &&& m1) (f3 &&& mf) (op &&& mo) := by
  simp only [encB, extractLsb'_and, ← and_append]

theorem encU_and : encU imm20 rd op &&& encU mu md mo = encU (imm20 &&& mu) (rd &&& md) (op &&& mo) := by
  simp only [encU, ← and_append]

theorem encJ_and : encJ imm20 rd op &&& encJ mu md mo = encJ (imm20 &&& mu) (rd &&& md) (op &&& mo) := by
  simp only [encJ, extractLsb'_and, ← and_append]

theorem encAmo_and : encAmo f5 aq rl rs2 rs1 f3 rd op &&& encAmo m5 ma mr m2 m1 mf md mo =
    encAmo (f5 &&& m5) (aq &&& ma) (rl &&& mr) (rs2 &&& m2) (rs1 &&& m1) (f3 &&& mf) (rd &&& md) (op &&& mo) := by
  simp only [encAmo, ← and_append]

theorem encFence_and : encFence fm pred succ rs1 f3 rd op &&& encFence mfm mp m4 m1 mf md mo =
    encFence (fm &&& mfm) (pred &&& mp) (succ &&& m4) (rs1 &&& m1) (f3 &&& mf) (rd &&& md) (op &&& mo) := by
  simp only [encFence, ← and_append]

theorem encImm4_and : encImm4 sel imm4 rs1 f3 rd op &&& encImm4 mse m4 m1 mf md mo =
    encImm4 (sel &&& mse) (imm4 &&& m4) (rs1 &&& m1) (f3 &&& mf) (rd &&& md) (op &&& mo) := by
  simp only [encImm4, ← and_append]

end full

/-! ## The fields of the 16-bit formats (spec/30_encoding.md R42, spec/42_compressed.md) -/

section half
variable {op mo : BitVec 2} {f3 mf rd' rs1' m1 m2 : BitVec 3} {rd rs2 md ms uimm5 mu5 : BitVec 5} {f4 m4 : BitVec 4}
  {imm6' mi f6 m6 : BitVec 6} {nzuimm mn : BitVec 8} {off mj : BitVec 11} {f2 mf2 : BitVec 2}

theorem fields_encCR : crdFull (encCR f4 rd rs2 op) = rd ∧ crs2Full (encCR f4 rd rs2 op) = rs2 := by
  simp (disch := omega) only [encCR, crdFull, crs2Full, extractLsb'_append_eq_of_le, extractLsb'_append_eq_of_add_le,
    Nat.reduceSub, extractLsb'_eq_self, true_and]

theorem fields_encCI : crdFull (encCI f3 imm6' rd op) = rd ∧ imm6 (encCI f3 imm6' rd op) = imm6' := by
  simp (disch := omega) only [encCI, crdFull, imm6, extractLsb'_append_eq_of_le, extractLsb'_append_eq_of_add_le,
    extractLsb'_append_extractLsb'_eq_extractLsb', Nat.reduceSub, extractLsb'_eq_self, true_and]

theorem fields_encCIW : crdOf (encCIW f3 nzuimm rd' op) = rd' ∧ nzuimmCIW (encCIW f3 nzuimm rd' op) = nzuimm := by
  simp (disch := omega) only [encCIW, crdOf, nzuimmCIW, extractLsb'_append_eq_of_le, extractLsb'_append_eq_of_add_le,
    extractLsb'_append_extractLsb'_eq_extractLsb', Nat.reduceSub, extractLsb'_eq_self, true_and]

theorem fields_encCLD : crdOf (encCLD f3 uimm5 rs1' rd' op) = rd' ∧ crs1Of (encCLD f3 uimm5 rs1' rd' op) = rs1' ∧
    uimmCLD (encCLD f3 uimm5 rs1' rd' op) = uimm5 := by
  simp (disch := omega) only [encCLD, crdOf, crs1Of, uimmCLD, extractLsb'_append_eq_of_le, extractLsb'_append_eq_of_add_le,
    extractLsb'_append_extractLsb'_eq_extractLsb', Nat.reduceSub, extractLsb'_eq_self, true_and]

theorem fields_encCLW : crdOf (encCLW f3 uimm5 rs1' rd' op) = rd' ∧ crs1Of (encCLW f3 uimm5 rs1' rd' op) = rs1' ∧
    uimmCLW (encCLW f3 uimm5 rs1' rd' op) = uimm5 := by
  simp (disch := omega) only [encCLW, crdOf, crs1Of, uimmCLW, extractLsb'_append_eq_of_le, extractLsb'_append_eq_of_add_le,
    extractLsb'_append_extractLsb'_eq_extractLsb', Nat.reduceSub, extractLsb'_eq_self, true_and]

theorem fields_enc16SP : nzimm16SP (enc16SP f3 imm6' op) = imm6' := by
  simp (disch := omega) only [enc16SP, nzimm16SP, extractLsb'_append_eq_of_le, extractLsb'_append_eq_of_add_le,
    extractLsb'_append_extractLsb'_eq_extractLsb', Nat.reduceSub, extractLsb'_eq_self]

theorem fields_encCBI : crs1Of (encCBI f3 f2 imm6' rd' op) = rd' ∧ imm6 (encCBI f3 f2 imm6' rd' op) = imm6' := by
  simp (disch := omega) only [encCBI, crs1Of, imm6, extractLsb'_append_eq_of_le, extractLsb'_append_eq_of_add_le,
    extractLsb'_append_extractLsb'_eq_extractLsb', Nat.reduceSub, extractLsb'_eq_self, true_and]

theorem fields_encCA : crs1Of (encCA f6 rd' f2 rs1' op) = rd' ∧ crdOf (encCA f6 rd' f2 rs1' op) = rs1' := by
  simp (disch := omega) only [encCA, crs1Of, crdOf, extractLsb'_append_eq_of_le, extractLsb'_append_eq_of_add_le,
    Nat.reduceSub, extractLsb'_eq_self, true_and]

theorem fields_encCJ : offCJ (encCJ f3 off op) = off := by
  simp (disch := omega) only [encCJ, offCJ, extractLsb'_append_eq_of_le, extractLsb'_append_eq_of_add_le,
    extractLsb'_append_extractLsb'_eq_extractLsb', Nat.reduceSub, extractLsb'_eq_self]

theorem fields_encCB : crs1Of (encCB f3 nzuimm rs1' op) = rs1' ∧ offCB (encCB f3 nzuimm rs1' op) = nzuimm := by
  simp (disch := omega) only [encCB, crs1Of, offCB, extractLsb'_append_eq_of_le, extractLsb'_append_eq_of_add_le,
    extractLsb'_append_extractLsb'_eq_extractLsb', Nat.reduceSub, extractLsb'_eq_self, true_and]

theorem fields_encLDSP : crdFull (encLDSP f3 imm6' rd op) = rd ∧ uimmLDSP (encLDSP f3 imm6' rd op) = imm6' := by
  simp (disch := omega) only [encLDSP, crdFull, uimmLDSP, extractLsb'_append_eq_of_le, extractLsb'_append_eq_of_add_le,
    extractLsb'_append_extractLsb'_eq_extractLsb', Nat.reduceSub, extractLsb'_eq_self, true_and]

theorem fields_encLWSP : crdFull (encLWSP f3 imm6' rd op) = rd ∧ uimmLWSP (encLWSP f3 imm6' rd op) = imm6' := by
  simp (disch := omega) only [encLWSP, crdFull, uimmLWSP, extractLsb'_append_eq_of_le, extractLsb'_append_eq_of_add_le,
    extractLsb'_append_extractLsb'_eq_extractLsb', Nat.reduceSub, extractLsb'_eq_self, true_and]

theorem fields_encSDSP : crs2Full (encSDSP f3 imm6' rs2 op) = rs2 ∧ uimmSDSP (encSDSP f3 imm6' rs2 op) = imm6' := by
  simp (disch := omega) only [encSDSP, crs2Full, uimmSDSP, extractLsb'_append_eq_of_le, extractLsb'_append_eq_of_add_le,
    extractLsb'_append_extractLsb'_eq_extractLsb', Nat.reduceSub, extractLsb'_eq_self, true_and]

theorem fields_encSWSP : crs2Full (encSWSP f3 imm6' rs2 op) = rs2 ∧ uimmSWSP (encSWSP f3 imm6' rs2 op) = imm6' := by
  simp (disch := omega) only [encSWSP, crs2Full, uimmSWSP, extractLsb'_append_eq_of_le, extractLsb'_append_eq_of_add_le,
    extractLsb'_append_extractLsb'_eq_extractLsb', Nat.reduceSub, extractLsb'_eq_self, true_and]

theorem encCR_and : encCR f4 rd rs2 op &&& encCR m4 md ms mo = encCR (f4 &&& m4) (rd &&& md) (rs2 &&& ms) (op &&& mo) := by
  simp only [encCR, ← and_append]

theorem encCI_and : encCI f3 imm6' rd op &&& encCI mf mi md mo =
    encCI (f3 &&& mf) (imm6' &&& mi) (rd &&& md) (op &&& mo) := by
  simp only [encCI, extractLsb'_and, ← and_append]

theorem encCIW_and : encCIW f3 nzuimm rd' op &&& encCIW mf mn m1 mo =
    encCIW (f3 &&& mf) (nzuimm &&& mn) (rd' &&& m1) (op &&& mo) := by
  simp only [encCIW, extractLsb'_and, ← and_append]

theorem encCLD_and : encCLD f3 uimm5 rs1' rd' op &&& encCLD mf mu5 m1 m2 mo =
    encCLD (f3 &&& mf) (uimm5 &&& mu5) (rs1' &&& m1) (rd' &&& m2) (op &&& mo) := by
  simp only [encCLD, extractLsb'_and, ← and_append]

theorem encCLW_and : encCLW f3 uimm5 rs1' rd' op &&& encCLW mf mu5 m1 m2 mo =
    encCLW (f3 &&& mf) (uimm5 &&& mu5) (rs1' &&& m1) (rd' &&& m2) (op &&& mo) := by
  simp only [encCLW, extractLsb'_and, ← and_append]

theorem encCBI_and : encCBI f3 f2 imm6' rd' op &&& encCBI mf mf2 mi m1 mo =
    encCBI (f3 &&& mf) (f2 &&& mf2) (imm6' &&& mi) (rd' &&& m1) (op &&& mo) := by
  simp only [encCBI, extractLsb'_and, ← and_append]

theorem encCA_and : encCA f6 rd' f2 rs1' op &&& encCA m6 m1 mf2 m2 mo =
    encCA (f6 &&& m6) (rd' &&& m1) (f2 &&& mf2) (rs1' &&& m2) (op &&& mo) := by
  simp only [encCA, ← and_append]

theorem encCJ_and : encCJ f3 off op &&& encCJ mf mj mo = encCJ (f3 &&& mf) (off &&& mj) (op &&& mo) := by
  simp only [encCJ, extractLsb'_and, ← and_append]

theorem encCB_and : encCB f3 nzuimm rs1' op &&& encCB mf mn m1 mo =
    encCB (f3 &&& mf) (nzuimm &&& mn) (rs1' &&& m1) (op &&& mo) := by
  simp only [encCB, extractLsb'_and, ← and_append]

theorem encLDSP_and : encLDSP f3 imm6' rd op &&& encLDSP mf mi md mo =
    encLDSP (f3 &&& mf) (imm6' &&& mi) (rd &&& md) (op &&& mo) := by
  simp only [encLDSP, extractLsb'_and, ← and_append]

theorem encLWSP_and : encLWSP f3 imm6' rd op &&& encLWSP mf mi md mo =
    encLWSP (f3 &&& mf) (imm6' &&& mi) (rd &&& md) (op &&& mo) := by
  simp only [encLWSP, extractLsb'_and, ← and_append]

theorem encSDSP_and : encSDSP f3 imm6' rs2 op &&& encSDSP mf mi ms mo =
    encSDSP (f3 &&& mf) (imm6' &&& mi) (rs2 &&& ms) (op &&& mo) := by
  simp only [encSDSP, extractLsb'_and, ← and_append]

theorem encSWSP_and : encSWSP f3 imm6' rs2 op &&& encSWSP mf mi ms mo =
    encSWSP (f3 &&& mf) (imm6' &&& mi) (rs2 &&& ms) (op &&& mo) := by
  simp only [encSWSP, extractLsb'_and, ← and_append]

end half

end Sys2Proof
end

section
/-! The statements of spec/30_encoding.md: decoding gives back what was encoded. The row of an instruction stands at the
instruction's place in the table and accepts its word; no other row accepting it, it is the one that decodes the word. -/

namespace Sys2Proof

open BitVec

/-! ## The row of an instruction -/

/-- The place of a 32-bit instruction's row: the constructors stand in the order of the table, which lists the compressed
rows after the base rows and, before the packed rows, the two bf16 rows that have no word. -/
noncomputable def Instr.placeFull (i : Instr) : Nat :=
  if i.ctorIdx < rowsBase.length then i.ctorIdx
  else if i.ctorIdx < (Instr.fcvtSBf16 0 0).ctorIdx then i.ctorIdx - rowsCompressed.length
  else i.ctorIdx - rowsCompressed.length - 2

/-- The place of a 16-bit instruction's row. -/
noncomputable def Instr.placeHalf (i : Instr) : Nat := i.ctorIdx - rowsBase.length

/-- The row of a 32-bit instruction has this mask, this match and these operands. -/
def Instr.FullRow (i : Instr) (mask pattern : BitVec 32) (build : BitVec 32 → Instr) : Prop :=
  ∃ name, rowsFull[i.placeFull]? = some ⟨name, i.rowXlen, mask, pattern, [], build⟩

/-- The row of a 16-bit instruction has this mask, this match, these forbidden values and these operands. -/
def Instr.HalfRow (i : Instr) (mask pattern : BitVec 16) (nots : List (BitVec 16 × BitVec 16)) (build : BitVec 16 → Instr) :
    Prop :=
  ∃ name, rowsCompressed[i.placeHalf]? = some ⟨name, i.rowXlen, mask, pattern, nots, build⟩

section row
variable {x : Xlen} {rows : List OpenRow} {i : Instr}

theorem decode_of_fullRow {mask pattern w : BitVec 32} {build : BitVec 32 → Instr} (h : i.FullRow mask pattern build)
    (hx : i.existsOn x = true) (hw : w &&& mask = pattern) (hb : build w = i) : decode x rows (.full w) = .ok i := by
  obtain ⟨name, h⟩ := h
  have hfirst := firstMatch_of_apart (x := x) (w := w) rowsFull_apart (List.mem_of_getElem? h) hx
    (Row.accepts_iff.mpr ⟨hw, List.forall_mem_nil _⟩)
  simp only [decode, decodeFull, hfirst, hb]

theorem decode_of_halfRow {mask pattern w : BitVec 16} {nots : List (BitVec 16 × BitVec 16)} {build : BitVec 16 → Instr}
    (h : i.HalfRow mask pattern nots build) (hx : i.existsOn x = true) (hw : w &&& mask = pattern)
    (hn : ∀ p ∈ nots, w &&& p.1 ≠ p.2) (hb : build w = i) : decode x rows (.half w) = .ok i := by
  obtain ⟨name, h⟩ := h
  have hfirst := firstMatch_of_apart (x := x) (w := w) rowsCompressed_apart (List.mem_of_getElem? h) hx
    (Row.accepts_iff.mpr ⟨hw, hn⟩)
  simp only [decode, decodeHalf, hfirst, hb]

end row

/-! ## Decoding, format by format: a row's mask has ones in the fields that the row fixes -/

section full
variable {x : Xlen} {rows : List OpenRow} {rd rs1 rs2 rs3 f5 : BitVec 5} {f7 op : BitVec 7} {f3 rm : BitVec 3}
  {fmt : BitVec 2} {imm : BitVec 12} {imm20 : BitVec 20} {f6 shamt : BitVec 6} {aq rl : BitVec 1} {sel : BitVec 8}
  {imm4 fm pred succ : BitVec 4}

theorem decode_encR {mk : Reg → Reg → Reg → Instr} (hx : (mk rd rs1 rs2).existsOn x = true)
    (h : (mk rd rs1 rs2).FullRow (encR (allOnes _) 0 0 (allOnes _) 0 (allOnes _)) (encR f7 0 0 f3 0 op)
      fun w => mk (rdOf w) (rs1Of w) (rs2Of w)) :
    decode x rows (.full (encR f7 rs2 rs1 f3 rd op)) = .ok (mk rd rs1 rs2) :=
  decode_of_fullRow h hx (by simp only [encR_and, and_allOnes, ofNat_eq_ofNat, and_zero]) (by simp only [fields_encR])

/-- A floating-point operation with a rounding mode. -/
theorem decode_encR_rounded {mk : Reg → Reg → Reg → BitVec 3 → Instr} (hx : (mk rd rs1 rs2 rm).existsOn x = true)
    (h : (mk rd rs1 rs2 rm).FullRow (encR (allOnes _) 0 0 0 0 (allOnes _)) (encR f7 0 0 0 0 op)
      fun w => mk (rdOf w) (rs1Of w) (rs2Of w) (rmOf w)) :
    decode x rows (.full (encR f7 rs2 rs1 rm rd op)) = .ok (mk rd rs1 rs2 rm) :=
  decode_of_fullRow h hx (by simp only [encR_and, and_allOnes, ofNat_eq_ofNat, and_zero]) (by simp only [fields_encR])

/-- One operand, the field of rs2 fixed. -/
theorem decode_encR_unary {mk : Reg → Reg → Instr} (hx : (mk rd rs1).existsOn x = true)
    (h : (mk rd rs1).FullRow (encR (allOnes _) (allOnes _) 0 (allOnes _) 0 (allOnes _)) (encR f7 rs2 0 f3 0 op)
      fun w => mk (rdOf w) (rs1Of w)) :
    decode x rows (.full (encR f7 rs2 rs1 f3 rd op)) = .ok (mk rd rs1) :=
  decode_of_fullRow h hx (by simp only [encR_and, and_allOnes, ofNat_eq_ofNat, and_zero]) (by simp only [fields_encR])

theorem decode_encR_unaryRounded {mk : Reg → Reg → BitVec 3 → Instr} (hx : (mk rd rs1 rm).existsOn x = true)
    (h : (mk rd rs1 rm).FullRow (encR (allOnes _) (allOnes _) 0 0 0 (allOnes _)) (encR f7 rs2 0 0 0 op)
      fun w => mk (rdOf w) (rs1Of w) (rmOf w)) :
    decode x rows (.full (encR f7 rs2 rs1 rm rd op)) = .ok (mk rd rs1 rm) :=
  decode_of_fullRow h hx (by simp only [encR_and, and_allOnes, ofNat_eq_ofNat, and_zero]) (by simp only [fields_encR])

theorem decode_encR4 {mk : Reg → Reg → Reg → Reg → BitVec 3 → Instr} (hx : (mk rd rs1 rs2 rs3 rm).existsOn x = true)
    (h : (mk rd rs1 rs2 rs3 rm).FullRow (encR4 0 (allOnes _) 0 0 0 0 (allOnes _)) (encR4 0 fmt 0 0 0 0 op)
      fun w => mk (rdOf w) (rs1Of w) (rs2Of w) (rs3Of w) (rmOf w)) :
    decode x rows (.full (encR4 rs3 fmt rs2 rs1 rm rd op)) = .ok (mk rd rs1 rs2 rs3 rm) :=
  decode_of_fullRow h hx (by simp only [encR4_and, and_allOnes, ofNat_eq_ofNat, and_zero]) (by simp only [fields_encR4])

theorem decode_encI {mk : Reg → Reg → BitVec 12 → Instr} (hx : (mk rd rs1 imm).existsOn x = true)
    (h : (mk rd rs1 imm).FullRow (encI 0 0 (allOnes _) 0 (allOnes _)) (encI 0 0 f3 0 op)
      fun w => mk (rdOf w) (rs1Of w) (imm12Of w)) :
    decode x rows (.full (encI imm rs1 f3 rd op)) = .ok (mk rd rs1 imm) :=
  decode_of_fullRow h hx (by simp only [encI_and, and_allOnes, ofNat_eq_ofNat, and_zero]) (by simp only [fields_encI])

/-- A CSR instruction: the immediate is the CSR's number and stands second. -/
theorem decode_encI_csr {mk : Reg → BitVec 12 → Reg → Instr} (hx : (mk rd imm rs1).existsOn x = true)
    (h : (mk rd imm rs1).FullRow (encI 0 0 (allOnes _) 0 (allOnes _)) (encI 0 0 f3 0 op)
      fun w => mk (rdOf w) (imm12Of w) (rs1Of w)) :
    decode x rows (.full (encI imm rs1 f3 rd op)) = .ok (mk rd imm rs1) :=
  decode_of_fullRow h hx (by simp only [encI_and, and_allOnes, ofNat_eq_ofNat, and_zero]) (by simp only [fields_encI])

theorem decode_encIsh {mk : Reg → Reg → BitVec 6 → Instr} (hx : (mk rd rs1 shamt).existsOn x = true)
    (h : (mk rd rs1 shamt).FullRow (encIsh (allOnes _) 0 0 (allOnes _) 0 (allOnes _)) (encIsh f6 0 0 f3 0 op)
      fun w => mk (rdOf w) (rs1Of w) (shamt6Of w)) :
    decode x rows (.full (encIsh f6 shamt rs1 f3 rd op)) = .ok (mk rd rs1 shamt) :=
  decode_of_fullRow h hx (by simp only [encIsh_and, and_allOnes, ofNat_eq_ofNat, and_zero]) (by simp only [fields_encIsh])

theorem decode_encS {mk : Reg → Reg → BitVec 12 → Instr} (hx : (mk rs2 rs1 imm).existsOn x = true)
    (h : (mk rs2 rs1 imm).FullRow (encS 0 0 0 (allOnes _) (allOnes _)) (encS 0 0 0 f3 op)
      fun w => mk (rs2Of w) (rs1Of w) (immS w)) :
    decode x rows (.full (encS imm rs2 rs1 f3 op)) = .ok (mk rs2 rs1 imm) :=
  decode_of_fullRow h hx (by simp only [encS_and, and_allOnes, ofNat_eq_ofNat, and_zero]) (by simp only [fields_encS])

theorem decode_encB {mk : Reg → Reg → BitVec 12 → Instr} (hx : (mk rs1 rs2 imm).existsOn x = true)
    (h : (mk rs1 rs2 imm).FullRow (encB 0 0 0 (allOnes _) (allOnes _)) (encB 0 0 0 f3 op)
      fun w => mk (rs1Of w) (rs2Of w) (offB w)) :
    decode x rows (.full (encB imm rs2 rs1 f3 op)) = .ok (mk rs1 rs2 imm) :=
  decode_of_fullRow h hx (by simp only [encB_and, and_allOnes, ofNat_eq_ofNat, and_zero]) (by simp only [fields_encB])

theorem decode_encU {mk : Reg → BitVec 20 → Instr} (hx : (mk rd imm20).existsOn x = true)
    (h : (mk rd imm20).FullRow (encU 0 0 (allOnes _)) (encU 0 0 op) fun w => mk (rdOf w) (imm20Of w)) :
    decode x rows (.full (encU imm20 rd op)) = .ok (mk rd imm20) :=
  decode_of_fullRow h hx (by simp only [encU_and, and_allOnes, ofNat_eq_ofNat, and_zero]) (by simp only [fields_encU])

theorem decode_encJ {mk : Reg → BitVec 20 → Instr} (hx : (mk rd imm20).existsOn x = true)
    (h : (mk rd imm20).FullRow (encJ 0 0 (allOnes _)) (encJ 0 0 op) fun w => mk (rdOf w) (offJ w)) :
    decode x rows (.full (encJ imm20 rd op)) = .ok (mk rd imm20) :=
  decode_of_fullRow h hx (by simp only [encJ_and, and_allOnes, ofNat_eq_ofNat, and_zero]) (by simp only [fields_encJ])

theorem decode_encAmo {mk : Reg → Reg → Reg → BitVec 1 → BitVec 1 → Instr} (hx : (mk rd rs2 rs1 aq rl).existsOn x = true)
    (h : (mk rd rs2 rs1 aq rl).FullRow (encAmo (allOnes _) 0 0 0 0 (allOnes _) 0 (allOnes _)) (encAmo f5 0 0 0 0 f3 0 op)
      fun w => mk (rdOf w) (rs2Of w) (rs1Of w) (aqOf w) (rlOf w)) :
    decode x rows (.full (encAmo f5 aq rl rs2 rs1 f3 rd op)) = .ok (mk rd rs2 rs1 aq rl) :=
  decode_of_fullRow h hx (by simp only [encAmo_and, and_allOnes, ofNat_eq_ofNat, and_zero]) (by simp only [fields_encAmo])

/-- A load-reserved: the field of rs2 is fixed. -/
theorem decode_encAmo_load {mk : Reg → Reg → BitVec 1 → BitVec 1 → Instr} (hx : (mk rd rs1 aq rl).existsOn x = true)
    (h : (mk rd rs1 aq rl).FullRow (encAmo (allOnes _) 0 0 (allOnes _) 0 (allOnes _) 0 (allOnes _))
      (encAmo f5 0 0 rs2 0 f3 0 op) fun w => mk (rdOf w) (rs1Of w) (aqOf w) (rlOf w)) :
    decode x rows (.full (encAmo f5 aq rl rs2 rs1 f3 rd op)) = .ok (mk rd rs1 aq rl) :=
  decode_of_fullRow h hx (by simp only [encAmo_and, and_allOnes, ofNat_eq_ofNat, and_zero]) (by simp only [fields_encAmo])

theorem decode_encFence {mk : BitVec 4 → BitVec 4 → BitVec 4 → Reg → Reg → Instr}
    (hx : (mk fm pred succ rs1 rd).existsOn x = true)
    (h : (mk fm pred succ rs1 rd).FullRow (encFence 0 0 0 0 (allOnes _) 0 (allOnes _)) (encFence 0 0 0 0 f3 0 op)
      fun w => mk (fmOf w) (predOf w) (succOf w) (rs1Of w) (rdOf w)) :
    decode x rows (.full (encFence fm pred succ rs1 f3 rd op)) = .ok (mk fm pred succ rs1 rd) :=
  decode_of_fullRow h hx (by simp only [encFence_and, and_allOnes, ofNat_eq_ofNat, and_zero])
    (by simp only [fields_encFence])

theorem decode_encImm4 {mk : Reg → Reg → BitVec 4 → Instr} (hx : (mk rd rs1 imm4).existsOn x = true)
    (h : (mk rd rs1 imm4).FullRow (encImm4 (allOnes _) 0 0 (allOnes _) 0 (allOnes _)) (encImm4 sel 0 0 f3 0 op)
      fun w => mk (rdOf w) (rs1Of w) (imm4uOf w)) :
    decode x rows (.full (encImm4 sel imm4 rs1 f3 rd op)) = .ok (mk rd rs1 imm4) :=
  decode_of_fullRow h hx (by simp only [encImm4_and, and_allOnes, ofNat_eq_ofNat, and_zero]) (by simp only [fields_encImm4])

end full

section half
variable {x : Xlen} {rows : List OpenRow} {op : BitVec 2} {f3 rd' rs' : BitVec 3} {rd rs2 uimm5 : BitVec 5} {f4 : BitVec 4}
  {imm f6 : BitVec 6} {imm8 : BitVec 8} {off : BitVec 11} {f2 : BitVec 2}

/-- A register field that is not the forbidden register is seen in the word. -/
theorem encCI_rd_ne {v : BitVec 5} (h : rd ≠ v) : encCI f3 imm rd op &&& encCI 0 0 (allOnes _) 0 ≠ encCI 0 0 v 0 :=
  fun e => h (by simpa only [encCI_and, and_allOnes, fields_encCI] using congrArg crdFull e)

theorem encCI_imm_ne {v : BitVec 6} (h : imm ≠ v) : encCI f3 imm rd op &&& encCI 0 (allOnes _) 0 0 ≠ encCI 0 v 0 0 :=
  fun e => h (by simpa only [encCI_and, and_allOnes, fields_encCI] using congrArg imm6 e)

theorem encCR_rd_ne {v : BitVec 5} (h : rd ≠ v) : encCR f4 rd rs2 op &&& encCR 0 (allOnes _) 0 0 ≠ encCR 0 v 0 0 :=
  fun e => h (by simpa only [encCR_and, and_allOnes, fields_encCR] using congrArg crdFull e)

theorem encCR_rs2_ne {v : BitVec 5} (h : rs2 ≠ v) : encCR f4 rd rs2 op &&& encCR 0 0 (allOnes _) 0 ≠ encCR 0 0 v 0 :=
  fun e => h (by simpa only [encCR_and, and_allOnes, fields_encCR] using congrArg crs2Full e)

theorem encCIW_imm_ne {v : BitVec 8} (h : imm8 ≠ v) : encCIW f3 imm8 rd' op &&& encCIW 0 (allOnes _) 0 0 ≠ encCIW 0 v 0 0 :=
  fun e => h (by simpa only [encCIW_and, and_allOnes, fields_encCIW] using congrArg nzuimmCIW e)

theorem encLDSP_rd_ne {v : BitVec 5} (h : rd ≠ v) : encLDSP f3 imm rd op &&& encLDSP 0 0 (allOnes _) 0 ≠ encLDSP 0 0 v 0 :=
  fun e => h (by simpa only [encLDSP_and, and_allOnes, fields_encLDSP] using congrArg crdFull e)

theorem encLWSP_rd_ne {v : BitVec 5} (h : rd ≠ v) : encLWSP f3 imm rd op &&& encLWSP 0 0 (allOnes _) 0 ≠ encLWSP 0 0 v 0 :=
  fun e => h (by simpa only [encLWSP_and, and_allOnes, fields_encLWSP] using congrArg crdFull e)

theorem decode_encCIW {mk : CReg → BitVec 8 → Instr} (hx : (mk rd' imm8).existsOn x = true) (hi : imm8 ≠ 0)
    (h : (mk rd' imm8).HalfRow (encCIW (allOnes _) 0 0 (allOnes _)) (encCIW f3 0 0 op)
      [(encCIW 0 (allOnes _) 0 0, encCIW 0 0 0 0)] fun w => mk (crdOf w) (nzuimmCIW w)) :
    decode x rows (.half (encCIW f3 imm8 rd' op)) = .ok (mk rd' imm8) :=
  decode_of_halfRow h hx (by simp only [encCIW_and, and_allOnes, ofNat_eq_ofNat, and_zero])
    (List.forall_mem_singleton.mpr (encCIW_imm_ne hi)) (by simp only [fields_encCIW])

theorem decode_encCLD {mk : CReg → CReg → BitVec 5 → Instr} (hx : (mk rd' rs' uimm5).existsOn x = true)
    (h : (mk rd' rs' uimm5).HalfRow (encCLD (allOnes _) 0 0 0 (allOnes _)) (encCLD f3 0 0 0 op) []
      fun w => mk (crdOf w) (crs1Of w) (uimmCLD w)) :
    decode x rows (.half (encCLD f3 uimm5 rs' rd' op)) = .ok (mk rd' rs' uimm5) :=
  decode_of_halfRow h hx (by simp only [encCLD_and, and_allOnes, ofNat_eq_ofNat, and_zero])
    (List.forall_mem_nil _) (by simp only [fields_encCLD])

theorem decode_encCLW {mk : CReg → CReg → BitVec 5 → Instr} (hx : (mk rd' rs' uimm5).existsOn x = true)
    (h : (mk rd' rs' uimm5).HalfRow (encCLW (allOnes _) 0 0 0 (allOnes _)) (encCLW f3 0 0 0 op) []
      fun w => mk (crdOf w) (crs1Of w) (uimmCLW w)) :
    decode x rows (.half (encCLW f3 uimm5 rs' rd' op)) = .ok (mk rd' rs' uimm5) :=
  decode_of_halfRow h hx (by simp only [encCLW_and, and_allOnes, ofNat_eq_ofNat, and_zero])
    (List.forall_mem_nil _) (by simp only [fields_encCLW])

theorem decode_encCI {mk : Reg → BitVec 6 → Instr} (hx : (mk rd imm).existsOn x = true) (hr : rd ≠ 0)
    (h : (mk rd imm).HalfRow (encCI (allOnes _) 0 0 (allOnes _)) (encCI f3 0 0 op) [(encCI 0 0 (allOnes _) 0, encCI 0 0 0 0)]
      fun w => mk (crdFull w) (imm6 w)) :
    decode x rows (.half (encCI f3 imm rd op)) = .ok (mk rd imm) :=
  decode_of_halfRow h hx (by simp only [encCI_and, and_allOnes, ofNat_eq_ofNat, and_zero])
    (List.forall_mem_singleton.mpr (encCI_rd_ne hr)) (by simp only [fields_encCI])

/-- c.lui shares its encoding with c.addi16sp: its register is neither x0 nor x2 and its immediate is not 0. -/
theorem decode_encCI_upper {mk : Reg → BitVec 6 → Instr} (hx : (mk rd imm).existsOn x = true) (hr : rd ≠ 0) (hsp : rd ≠ 2)
    (hi : imm ≠ 0)
    (h : (mk rd imm).HalfRow (encCI (allOnes _) 0 0 (allOnes _)) (encCI f3 0 0 op)
      [(encCI 0 0 (allOnes _) 0, encCI 0 0 0 0), (encCI 0 0 (allOnes _) 0, encCI 0 0 2 0),
        (encCI 0 (allOnes _) 0 0, encCI 0 0 0 0)] fun w => mk (crdFull w) (imm6 w)) :
    decode x rows (.half (encCI f3 imm rd op)) = .ok (mk rd imm) :=
  decode_of_halfRow h hx (by simp only [encCI_and, and_allOnes, ofNat_eq_ofNat, and_zero])
    (List.forall_mem_cons.mpr ⟨encCI_rd_ne hr,
      List.forall_mem_cons.mpr ⟨encCI_rd_ne hsp, List.forall_mem_singleton.mpr (encCI_imm_ne hi)⟩⟩)
    (by simp only [fields_encCI])

theorem decode_encCBI {mk : CReg → BitVec 6 → Instr} (hx : (mk rd' imm).existsOn x = true)
    (h : (mk rd' imm).HalfRow (encCBI (allOnes _) (allOnes _) 0 0 (allOnes _)) (encCBI f3 f2 0 0 op) []
      fun w => mk (crs1Of w) (imm6 w)) :
    decode x rows (.half (encCBI f3 f2 imm rd' op)) = .ok (mk rd' imm) :=
  decode_of_halfRow h hx (by simp only [encCBI_and, and_allOnes, ofNat_eq_ofNat, and_zero])
    (List.forall_mem_nil _) (by simp only [fields_encCBI])

theorem decode_encCA {mk : CReg → CReg → Instr} (hx : (mk rd' rs').existsOn x = true)
    (h : (mk rd' rs').HalfRow (encCA (allOnes _) 0 (allOnes _) 0 (allOnes _)) (encCA f6 0 f2 0 op) []
      fun w => mk (crs1Of w) (crdOf w)) :
    decode x rows (.half (encCA f6 rd' f2 rs' op)) = .ok (mk rd' rs') :=
  decode_of_halfRow h hx (by simp only [encCA_and, and_allOnes, ofNat_eq_ofNat, and_zero])
    (List.forall_mem_nil _) (by simp only [fields_encCA])

theorem decode_encCJ {mk : BitVec 11 → Instr} (hx : (mk off).existsOn x = true)
    (h : (mk off).HalfRow (encCJ (allOnes _) 0 (allOnes _)) (encCJ f3 0 op) [] fun w => mk (offCJ w)) :
    decode x rows (.half (encCJ f3 off op)) = .ok (mk off) :=
  decode_of_halfRow h hx (by simp only [encCJ_and, and_allOnes, ofNat_eq_ofNat, and_zero])
    (List.forall_mem_nil _) (by simp only [fields_encCJ])

theorem decode_encCB {mk : CReg → BitVec 8 → Instr} (hx : (mk rs' imm8).existsOn x = true)
    (h : (mk rs' imm8).HalfRow (encCB (allOnes _) 0 0 (allOnes _)) (encCB f3 0 0 op) [] fun w => mk (crs1Of w) (offCB w)) :
    decode x rows (.half (encCB f3 imm8 rs' op)) = .ok (mk rs' imm8) :=
  decode_of_halfRow h hx (by simp only [encCB_and, and_allOnes, ofNat_eq_ofNat, and_zero])
    (List.forall_mem_nil _) (by simp only [fields_encCB])

theorem decode_encLDSP {mk : Reg → BitVec 6 → Instr} (hx : (mk rd imm).existsOn x = true)
    (h : (mk rd imm).HalfRow (encLDSP (allOnes _) 0 0 (allOnes _)) (encLDSP f3 0 0 op) []
      fun w => mk (crdFull w) (uimmLDSP w)) :
    decode x rows (.half (encLDSP f3 imm rd op)) = .ok (mk rd imm) :=
  decode_of_halfRow h hx (by simp only [encLDSP_and, and_allOnes, ofNat_eq_ofNat, and_zero])
    (List.forall_mem_nil _) (by simp only [fields_encLDSP])

/-- A load into a general register, which is not x0. -/
theorem decode_encLDSP_general {mk : Reg → BitVec 6 → Instr} (hx : (mk rd imm).existsOn x = true) (hr : rd ≠ 0)
    (h : (mk rd imm).HalfRow (encLDSP (allOnes _) 0 0 (allOnes _)) (encLDSP f3 0 0 op)
      [(encLDSP 0 0 (allOnes _) 0, encLDSP 0 0 0 0)] fun w => mk (crdFull w) (uimmLDSP w)) :
    decode x rows (.half (encLDSP f3 imm rd op)) = .ok (mk rd imm) :=
  decode_of_halfRow h hx (by simp only [encLDSP_and, and_allOnes, ofNat_eq_ofNat, and_zero])
    (List.forall_mem_singleton.mpr (encLDSP_rd_ne hr)) (by simp only [fields_encLDSP])

theorem decode_encLWSP {mk : Reg → BitVec 6 → Instr} (hx : (mk rd imm).existsOn x = true)
    (h : (mk rd imm).HalfRow (encLWSP (allOnes _) 0 0 (allOnes _)) (encLWSP f3 0 0 op) []
      fun w => mk (crdFull w) (uimmLWSP w)) :
    decode x rows (.half (encLWSP f3 imm rd op)) = .ok (mk rd imm) :=
  decode_of_halfRow h hx (by simp only [encLWSP_and, and_allOnes, ofNat_eq_ofNat, and_zero])
    (List.forall_mem_nil _) (by simp only [fields_encLWSP])

/-- A load into a general register, which is not x0. -/
theorem decode_encLWSP_general {mk : Reg → BitVec 6 → Instr} (hx : (mk rd imm).existsOn x = true) (hr : rd ≠ 0)
    (h : (mk rd imm).HalfRow (encLWSP (allOnes _) 0 0 (allOnes _)) (encLWSP f3 0 0 op)
      [(encLWSP 0 0 (allOnes _) 0, encLWSP 0 0 0 0)] fun w => mk (crdFull w) (uimmLWSP w)) :
    decode x rows (.half (encLWSP f3 imm rd op)) = .ok (mk rd imm) :=
  decode_of_halfRow h hx (by simp only [encLWSP_and, and_allOnes, ofNat_eq_ofNat, and_zero])
    (List.forall_mem_singleton.mpr (encLWSP_rd_ne hr)) (by simp only [fields_encLWSP])

theorem decode_encSDSP {mk : Reg → BitVec 6 → Instr} (hx : (mk rs2 imm).existsOn x = true)
    (h : (mk rs2 imm).HalfRow (encSDSP (allOnes _) 0 0 (allOnes _)) (encSDSP f3 0 0 op) []
      fun w => mk (crs2Full w) (uimmSDSP w)) :
    decode x rows (.half (encSDSP f3 imm rs2 op)) = .ok (mk rs2 imm) :=
  decode_of_halfRow h hx (by simp only [encSDSP_and, and_allOnes, ofNat_eq_ofNat, and_zero])
    (List.forall_mem_nil _) (by simp only [fields_encSDSP])

theorem decode_encSWSP {mk : Reg → BitVec 6 → Instr} (hx : (mk rs2 imm).existsOn x = true)
    (h : (mk rs2 imm).HalfRow (encSWSP (allOnes _) 0 0 (allOnes _)) (encSWSP f3 0 0 op) []
      fun w => mk (crs2Full w) (uimmSWSP w)) :
    decode x rows (.half (encSWSP f3 imm rs2 op)) = .ok (mk rs2 imm) :=
  decode_of_halfRow h hx (by simp only [encSWSP_and, and_allOnes, ofNat_eq_ofNat, and_zero])
    (List.forall_mem_nil _) (by simp only [fields_encSWSP])

/-- A jump to a register: the field of rs2 is fixed. -/
theorem decode_encCR_jump {mk : Reg → Instr} (hx : (mk rd).existsOn x = true) (hr : rd ≠ 0)
    (h : (mk rd).HalfRow (encCR (allOnes _) 0 (allOnes _) (allOnes _)) (encCR f4 0 rs2 op)
      [(encCR 0 (allOnes _) 0 0, encCR 0 0 0 0)] fun w => mk (crdFull w)) :
    decode x rows (.half (encCR f4 rd rs2 op)) = .ok (mk rd) :=
  decode_of_halfRow h hx (by simp only [encCR_and, and_allOnes, ofNat_eq_ofNat, and_zero])
    (List.forall_mem_singleton.mpr (encCR_rd_ne hr)) (by simp only [fields_encCR])

theorem decode_encCR {mk : Reg → Reg → Instr} (hx : (mk rd rs2).existsOn x = true) (hr : rd ≠ 0) (hs : rs2 ≠ 0)
    (h : (mk rd rs2).HalfRow (encCR (allOnes _) 0 0 (allOnes _)) (encCR f4 0 0 op)
      [(encCR 0 (allOnes _) 0 0, encCR 0 0 0 0), (encCR 0 0 (allOnes _) 0, encCR 0 0 0 0)]
      fun w => mk (crdFull w) (crs2Full w)) :
    decode x rows (.half (encCR f4 rd rs2 op)) = .ok (mk rd rs2) :=
  decode_of_halfRow h hx (by simp only [encCR_and, and_allOnes, ofNat_eq_ofNat, and_zero])
    (List.forall_mem_cons.mpr ⟨encCR_rd_ne hr, List.forall_mem_singleton.mpr (encCR_rs2_ne hs)⟩)
    (by simp only [fields_encCR])

/-- The row of c.addi16sp, which fixes the register field as well, accepts every immediate but 0. -/
theorem enc16SP_accepted (hi : imm ≠ 0) : enc16SP 3 imm 1 &&& 0xef83 = 0x6101 ∧ enc16SP 3 imm 1 &&& 0x107c ≠ 0 := by
  revert imm
  decide

end half

/-! ## Every instruction -/

/-- The word of an instruction decodes to it, its operand predicate and its XLEN given. -/
theorem decode_of_encode {x : Xlen} {rows : List OpenRow} {i : Instr} {p : Parcel} (hwf : i.wellFormed = true)
    (hx : i.existsOn x = true) (h : encode i = some p) : decode x rows p = .ok i := by
  cases i <;> cases h
  case lui | auipc => exact decode_encU hx ⟨_, rfl⟩
  case jal => exact decode_encJ hx ⟨_, rfl⟩
  case beq | bne | blt | bge | bltu | bgeu => exact decode_encB hx ⟨_, rfl⟩
  case sb | sh | sw | sd | fsw | fsd | fsh => exact decode_encS hx ⟨_, rfl⟩
  case jalr | lb | lh | lw | lbu | lhu | lwu | ld | addi | slti | sltiu | xori | ori | andi | addiw | fenceI | flw | fld
      | flh =>
    exact decode_encI hx ⟨_, rfl⟩
  case csrrw | csrrs | csrrc | csrrwi | csrrsi | csrrci => exact decode_encI_csr hx ⟨_, rfl⟩
  case ecall | ebreak => exact decode_of_fullRow ⟨_, rfl⟩ hx (by decide) rfl
  case slli | srli | srai => exact decode_encIsh hx ⟨_, rfl⟩
  case fence => exact decode_encFence hx ⟨_, rfl⟩
  case lrW | lrD => exact decode_encAmo_load hx ⟨_, rfl⟩
  case scW | amoswapW | amoaddW | amoxorW | amoandW | amoorW | amominW | amomaxW | amominuW | amomaxuW | scD | amoswapD
      | amoaddD | amoxorD | amoandD | amoorD | amominD | amomaxD | amominuD | amomaxuD =>
    exact decode_encAmo hx ⟨_, rfl⟩
  case fmaddS | fmsubS | fnmsubS | fnmaddS | fmaddD | fmsubD | fnmsubD | fnmaddD | fmaddH | fmsubH | fnmsubH | fnmaddH =>
    exact decode_encR4 hx ⟨_, rfl⟩
  case faddS | fsubS | fmulS | fdivS | faddD | fsubD | fmulD | fdivD | faddH | fsubH | fmulH | fdivH =>
    exact decode_encR_rounded hx ⟨_, rfl⟩
  case fcvtSD | fcvtDS | fcvtSH | fcvtHS | fcvtDH | fcvtHD | fsqrtS | fcvtWS | fcvtSW | fcvtWuS | fcvtSWu | fcvtLS | fcvtSL
      | fcvtLuS | fcvtSLu | fsqrtD | fcvtWD | fcvtDW | fcvtWuD | fcvtDWu | fcvtLD | fcvtDL | fcvtLuD | fcvtDLu | fsqrtH
      | fcvtWH | fcvtHW | fcvtWuH | fcvtHWu | fcvtLH | fcvtHL | fcvtLuH | fcvtHLu =>
    exact decode_encR_unaryRounded hx ⟨_, rfl⟩
  case fclassS | fmvXW | fmvWX | fclassD | fmvXD | fmvDX | fclassH | fmvXH | fmvHX | kabs16 | kabs8 =>
    exact decode_encR_unary hx ⟨_, rfl⟩
  case srai16 | srai16U | srli16 | srli16U | slli16 | kslli16 | sclip16 | uclip16 => exact decode_encImm4 hx ⟨_, rfl⟩
  -- compressed
  case cNop | cEbreak => exact decode_of_halfRow ⟨_, rfl⟩ hx (by decide) (List.forall_mem_nil _) rfl
  case cAddi4spn => exact decode_encCIW hx (bne_iff_ne.mp hwf) ⟨_, rfl⟩
  case cFld | cLd | cFsd | cSd => exact decode_encCLD hx ⟨_, rfl⟩
  case cLw | cFlw | cSw | cFsw => exact decode_encCLW hx ⟨_, rfl⟩
  case cAddi | cAddiw | cLi | cSlli => exact decode_encCI hx (bne_iff_ne.mp hwf) ⟨_, rfl⟩
  case cLui =>
    simp only [Instr.wellFormed, Bool.and_eq_true, bne_iff_ne] at hwf
    obtain ⟨⟨hr, hsp⟩, hi⟩ := hwf
    exact decode_encCI_upper hx hr hsp hi ⟨_, rfl⟩
  case cAddi16sp =>
    obtain ⟨hw, hn⟩ := enc16SP_accepted (bne_iff_ne.mp hwf)
    exact decode_of_halfRow ⟨_, rfl⟩ hx hw (List.forall_mem_singleton.mpr hn) (congrArg Instr.cAddi16sp fields_enc16SP)
  case cSrli | cSrai | cAndi => exact decode_encCBI hx ⟨_, rfl⟩
  case cSub | cXor | cOr | cAnd | cSubw | cAddw => exact decode_encCA hx ⟨_, rfl⟩
  case cJal | cJ => exact decode_encCJ hx ⟨_, rfl⟩
  case cBeqz | cBnez => exact decode_encCB hx ⟨_, rfl⟩
  case cFldsp => exact decode_encLDSP hx ⟨_, rfl⟩
  case cLdsp => exact decode_encLDSP_general hx (bne_iff_ne.mp hwf) ⟨_, rfl⟩
  case cFlwsp => exact decode_encLWSP hx ⟨_, rfl⟩
  case cLwsp => exact decode_encLWSP_general hx (bne_iff_ne.mp hwf) ⟨_, rfl⟩
  case cFsdsp | cSdsp => exact decode_encSDSP hx ⟨_, rfl⟩
  case cSwsp | cFswsp => exact decode_encSWSP hx ⟨_, rfl⟩
  case cJr | cJalr => exact decode_encCR_jump hx (bne_iff_ne.mp hwf) ⟨_, rfl⟩
  case cMv | cAdd =>
    simp only [Instr.wellFormed, Bool.and_eq_true, bne_iff_ne] at hwf
    obtain ⟨hr, hs⟩ := hwf
    exact decode_encCR hx hr hs ⟨_, rfl⟩
  -- every other row has two source fields and a destination
  all_goals exact decode_encR hx ⟨_, rfl⟩

/-- Settles O58, instruction by instruction from the format of its word. -/
theorem encodeDecode : Obligations.EncodeDecode := fun _ _ _ _ => decode_of_encode

/-- Settles O56: each word is the encoding of the instruction. -/
theorem decodeWords : Obligations.DecodeWords := by
  intro rows
  and_intros <;> exact decode_of_encode rfl rfl rfl

end Sys2Proof
end

section
/-! What the XLEN does not have: rows of the other XLEN and, on RV32, shift amounts of 32 and more. -/

namespace Sys2Proof.Machine

/-- A row that needs an XLEN starts with the check of it. -/
theorem exec_eq_onlyOn {i : Instr} {x : Xlen} (s : State) (hx : i.rowXlen = some x) : ∃ go, exec i s = onlyOn x s go := by
  cases i
  case lwu | ld | sd | addiw | slliw | srliw | sraiw | addw | subw | sllw | srlw | sraw | cLd | cSd | cAddiw | cSubw | cAddw
      | cLdsp | cSdsp | mulw | divw | divuw | remw | remuw | lrD | scD | amoswapD | amoaddD | amoxorD | amoandD | amoorD
      | amominD | amomaxD | amominuD | amomaxuD | fcvtLS | fcvtSL | fcvtLuS | fcvtSLu | fcvtLD | fcvtDL | fcvtLuD | fcvtDLu
      | fmvXD | fmvDX | fcvtLH | fcvtHL | fcvtLuH | fcvtHLu | cFlw | cFsw | cJal | cFlwsp | cFswsp =>
    cases hx
    exact ⟨_, rfl⟩
  all_goals exact absurd hx nofun

theorem rowXlen_of_not_existsOn {i : Instr} {x : Xlen} (h : i.existsOn x = false) : ∃ y, i.rowXlen = some y ∧ x ≠ y := by
  unfold Instr.existsOn at h
  split at h
  · cases h
  · next y hy => exact ⟨y, hy, fun e => by simp [e] at h⟩

theorem shamtLegal_eq_false {s : State} {shamt : BitVec 6} (hx : s.params.xlen = .rv32) (h : shamt.getLsbD 5 = true) :
    s.shamtLegal shamt = false := by
  simp [State.shamtLegal, hx, h]

/-- Settles O50: the check of the XLEN comes first and fails, and so does that of the shift amount. -/
theorem wrongXlenHalts : Obligations.WrongXlenHalts := by
  refine ⟨fun i s h => ?_, fun s rd rs1 cd shamt hx hbit hm i hi => ?_⟩
  · obtain ⟨x, hrow, hne⟩ := rowXlen_of_not_existsOn h
    obtain ⟨go, e⟩ := exec_eq_onlyOn s hrow
    rw [e, onlyOn_of_ne hne]
  · have hl := shamtLegal_eq_false hx hbit
    have hrd : s.mayName [rd] = true := mayName_of_subset hm (by simp)
    have hcd := CReg.mayName s cd
    simp only [List.mem_cons, List.not_mem_nil, or_false] at hi
    rcases hi with rfl | rfl | rfl | rfl | rfl | rfl
    iterate 3 exact shiftImmOp_halts hm hl
    · exact cShiftOp_halts hrd hl
    iterate 2 exact cShiftOp_halts hcd hl

end Sys2Proof.Machine
end

section
/-! The statements of spec/40_helpers.md: the saturations, the half-multiply and the rounding shifts. -/

namespace Sys2Proof.Machine

/-! ## Saturation (R58 to R60) -/

section saturation
variable {w range : Nat} {v : Int}

theorem satS_of_gt (h : v > 2 ^ range - 1) : satS w v range = (BitVec.ofInt w (2 ^ range - 1), true) := if_pos h

theorem satS_of_lt (h : v < -2 ^ range) : satS w v range = (BitVec.ofInt w (-2 ^ range), true) := by
  have hpos : (0 : Int) < 2 ^ range := Int.pow_pos (by decide)
  rw [satS, if_neg (by omega), if_pos h]

theorem satS_of_mem (hlo : -2 ^ range ≤ v) (hhi : v ≤ 2 ^ range - 1) : satS w v range = (BitVec.ofInt w v, false) := by
  rw [satS, if_neg (Int.not_lt.mpr hhi), if_neg (Int.not_lt.mpr hlo)]

theorem satU_of_gt (h : v > 2 ^ range - 1) : satU w v range = (BitVec.ofInt w (2 ^ range - 1), true) := if_pos h

theorem satU_of_neg (h : v < 0) : satU w v range = (0, true) := by
  have hpos : (0 : Int) < 2 ^ range := Int.pow_pos (by decide)
  rw [satU, if_neg (by omega), if_pos h]

theorem satU_of_mem (hlo : 0 ≤ v) (hhi : v ≤ 2 ^ range - 1) : satU w v range = (BitVec.ofInt w v, false) := by
  rw [satU, if_neg (Int.not_lt.mpr hhi), if_neg (Int.not_lt.mpr hlo)]

end saturation

/-- Settles O45, a clause for each branch of the saturations and of OV. -/
theorem saturationHelpers : Obligations.SaturationHelpers := fun _ _ _ =>
  ⟨satS_of_gt, satS_of_lt, satS_of_mem, satU_of_gt, satU_of_neg, satU_of_mem, fun s => ⟨s.raiseOv_ucode true, rfl⟩⟩

theorem natCast_two_pow (k : Nat) : ((2 ^ k : Nat) : Int) = 2 ^ k := by rw [Int.natCast_pow, Int.cast_ofNat_Int]

/-- The floor shift of an integer (R61, R62) is the division by the power of two. -/
theorem int_shiftRight_eq_ediv (x : Int) (k : Nat) : x >>> k = x / 2 ^ k := by
  rw [Int.shiftRight_eq_div_pow, natCast_two_pow]

/-! ## The half-multiply (R61) -/

section halfMultiply
variable {w : Nat} {a b : BitVec w}

theorem eq_intMin_iff (hw : 0 < w) : a = BitVec.intMin w ↔ a.toInt = -2 ^ (w - 1) := by
  rw [← BitVec.toInt_inj, BitVec.toInt_intMin_of_pos hw]

theorem natAbs_toInt_le (a : BitVec w) : a.toInt.natAbs ≤ 2 ^ (w - 1) := by
  have hlo : -2 ^ (w - 1) ≤ a.toInt := a.le_toInt
  have hhi : a.toInt < 2 ^ (w - 1) := BitVec.toInt_lt
  have hcast := natCast_two_pow (w - 1)
  omega

theorem natAbs_toInt_lt (h : a.toInt ≠ -2 ^ (w - 1)) : a.toInt.natAbs < 2 ^ (w - 1) := by
  have hlo : -2 ^ (w - 1) ≤ a.toInt := a.le_toInt
  have hhi : a.toInt < 2 ^ (w - 1) := BitVec.toInt_lt
  have hcast := natCast_two_pow (w - 1)
  omega

/-- Only MIN by MIN reaches the square of the lane's bound. -/
theorem natAbs_toInt_mul_lt (h : ¬(a.toInt = -2 ^ (w - 1) ∧ b.toInt = -2 ^ (w - 1))) :
    (a.toInt * b.toInt).natAbs < 2 ^ (w - 1) * 2 ^ (w - 1) := by
  have hpos : 0 < 2 ^ (w - 1) := Nat.two_pow_pos _
  rw [Int.natAbs_mul]
  rcases Classical.not_and_iff_not_or_not.mp h with ha | hb
  · exact Nat.mul_lt_mul_of_lt_of_le (natAbs_toInt_lt ha) (natAbs_toInt_le b) hpos
  · exact Nat.mul_lt_mul_of_le_of_lt (natAbs_toInt_le a) (natAbs_toInt_lt hb) hpos

theorem khm_of_min (hw : 0 < w) (ha : a.toInt = -2 ^ (w - 1)) (hb : b.toInt = -2 ^ (w - 1)) :
    khm a b = (BitVec.intMax w, true) :=
  if_pos ⟨(eq_intMin_iff hw).mpr ha, (eq_intMin_iff hw).mpr hb⟩

theorem khm_of_not_min (hw : 0 < w) (h : ¬(a.toInt = -2 ^ (w - 1) ∧ b.toInt = -2 ^ (w - 1))) :
    khm a b = (BitVec.ofInt w (a.toInt * b.toInt / 2 ^ (w - 1)), false) := by
  have hmin : ¬(a = BitVec.intMin w ∧ b = BitVec.intMin w) := by rwa [eq_intMin_iff hw, eq_intMin_iff hw]
  rw [khm, if_neg hmin, int_shiftRight_eq_ediv]

/-- The shifted product fits the lane. -/
theorem khm_toInt_of_not_min (hw : 0 < w) (h : ¬(a.toInt = -2 ^ (w - 1) ∧ b.toInt = -2 ^ (w - 1))) :
    (khm a b).1.toInt = a.toInt * b.toInt / 2 ^ (w - 1) := by
  have hpos : (0 : Int) < 2 ^ (w - 1) := Int.pow_pos (by decide)
  have habs : ((a.toInt * b.toInt).natAbs : Int) < 2 ^ (w - 1) * 2 ^ (w - 1) := by
    exact_mod_cast natAbs_toInt_mul_lt h
  rw [khm_of_not_min hw h]
  refine BitVec.toInt_ofInt_eq_self hw ((Int.le_ediv_iff_mul_le hpos).mpr ?_) ((Int.ediv_lt_iff_lt_mul hpos).mpr ?_)
  · rw [Int.neg_mul]
    omega
  · omega

end halfMultiply

/-! ## The rounding shifts (R62) -/

theorem ediv_pow_succ (x : Int) (k : Nat) : x / 2 ^ (k + 1) = x / 2 ^ k / 2 := by
  rw [Int.pow_succ, Int.ediv_ediv_of_nonneg (Int.pow_nonneg (by decide))]

/-- The two forms of R62 agree: half of the divisor, added before the shift, carries exactly when the bit below is 1. -/
theorem ediv_pow_succ_add_bit (x : Int) (k : Nat) : x / 2 ^ (k + 1) + x / 2 ^ k % 2 = (x + 2 ^ k) / 2 ^ (k + 1) := by
  have hpos : (0 : Int) < 2 ^ k := Int.pow_pos (by decide)
  have hcarry : (x + 2 ^ k) / 2 ^ k = x / 2 ^ k + 1 := by
    rw [Int.add_ediv_of_dvd_right (Int.dvd_refl _), Int.ediv_self (Int.ne_of_gt hpos)]
  rw [ediv_pow_succ, ediv_pow_succ, hcarry]
  omega

/-- Rounding to nearest moves no number away from 0: a bound on both sides is kept. -/
theorem two_mul_rounded_bounds {x m : Int} (k : Nat) (hlo : -m ≤ 2 * x) (hhi : 2 * x < m) :
    -m ≤ 2 * (x / 2 ^ (k + 1) + x / 2 ^ k % 2) ∧ 2 * (x / 2 ^ (k + 1) + x / 2 ^ k % 2) < m := by
  have hpos : (0 : Int) < 2 ^ k := Int.pow_pos (by decide)
  rw [ediv_pow_succ]
  by_cases hx : x < 0
  · have hneg : x / 2 ^ k < 0 := Int.ediv_neg_of_neg_of_pos hx hpos
    have hmul : x * 2 ^ k ≤ x * 1 := Int.mul_le_mul_of_nonpos_left (Int.le_of_lt hx) hpos
    rw [Int.mul_one] at hmul
    have hle : x ≤ x / 2 ^ k := (Int.le_ediv_iff_mul_le hpos).mpr hmul
    omega
  · have hnonneg : 0 ≤ x / 2 ^ k := Int.ediv_nonneg (Int.not_lt.mp hx) (Int.le_of_lt hpos)
    have hle : x / 2 ^ k ≤ x := Int.ediv_le_self _ (Int.not_lt.mp hx)
    omega

section rounding
variable {w : Nat}

theorem toNat_div_pow_mod_two (a : BitVec w) (k : Nat) : a.toNat / 2 ^ k % 2 = if a.getLsbD k then 1 else 0 := by
  rw [← Nat.toNat_testBit, BitVec.testBit_toNat, Bool.toNat, Bool.cond_eq_ite]

theorem toInt_emod_two (hw : 0 < w) (a : BitVec w) : a.toInt % 2 = if a.getLsbD 0 then 1 else 0 := by
  have hdvd : (2 : Int) ∣ (2 ^ w : Nat) := Int.natCast_dvd_natCast.mpr (Nat.pow_dvd_pow 2 hw)
  calc a.toInt % 2 = (a.toNat : Int) % 2 := by
        rw [BitVec.toInt_eq_toNat_bmod, ← Int.emod_emod_of_dvd _ hdvd, Int.bmod_emod, Int.emod_emod_of_dvd _ hdvd]
    _ = ((a.getLsbD 0).toNat : Int) := by
        rw [← BitVec.testBit_toNat, Nat.toNat_testBit, Nat.pow_zero, Nat.div_one, Int.natCast_emod, Int.cast_ofNat_Int]
    _ = if a.getLsbD 0 then 1 else 0 := by cases a.getLsbD 0 <;> rfl

/-- Below the width a bit of the integer is a bit of the lane: it is the low bit of the lane shifted right. -/
theorem toInt_ediv_pow_emod_two {k : Nat} (hk : k < w) (a : BitVec w) :
    a.toInt / 2 ^ k % 2 = if a.getLsbD k then 1 else 0 := by
  have hw : 0 < w := Nat.zero_lt_of_lt hk
  calc a.toInt / 2 ^ k % 2 = (a.sshiftRight k).toInt % 2 := by rw [BitVec.toInt_sshiftRight, int_shiftRight_eq_ediv]
    _ = if a.getLsbD k then 1 else 0 := by
        rw [toInt_emod_two hw, BitVec.getLsbD_sshiftRight, Nat.add_zero, if_pos hk,
          decide_eq_false (Nat.not_le.mpr hw), Bool.not_false, Bool.true_and]

theorem rShrS_zero (a : BitVec w) : rShrS a 0 = a := rfl

theorem rShrU_zero (a : BitVec w) : rShrU a 0 = a := rfl

/-- The rounded value fits the lane. -/
theorem rShrS_succ_toInt (a : BitVec w) (k : Nat) :
    (rShrS a (k + 1)).toInt = a.toInt / 2 ^ (k + 1) + a.toInt / 2 ^ k % 2 := by
  obtain ⟨hlo, hhi⟩ := two_mul_rounded_bounds k BitVec.le_two_mul_toInt (BitVec.two_mul_toInt_lt (x := a))
  rw [rShrS, if_neg k.succ_ne_zero, BitVec.toInt_ofInt, int_shiftRight_eq_ediv, int_shiftRight_eq_ediv,
    Nat.add_sub_cancel]
  exact Int.bmod_eq_of_le_mul_two (by rw [natCast_two_pow]; omega) (by rw [natCast_two_pow]; omega)

theorem rShrU_succ_toNat (a : BitVec w) (k : Nat) :
    (rShrU a (k + 1)).toNat = a.toNat / 2 ^ (k + 1) + a.toNat / 2 ^ k % 2 := by
  have hlt : a.toNat < 2 ^ w := a.isLt
  have hle : a.toNat / 2 ^ k ≤ a.toNat := Nat.div_le_self _ _
  have hhalf : a.toNat / 2 ^ (k + 1) = a.toNat / 2 ^ k / 2 := by rw [Nat.pow_succ, Nat.div_div_eq_div_mul]
  rw [rShrU, if_neg k.succ_ne_zero, BitVec.toNat_ofNat, Nat.shiftRight_eq_div_pow, Nat.add_sub_cancel,
    ← BitVec.testBit_toNat, Nat.toNat_testBit]
  exact Nat.mod_eq_of_lt (by omega)

end rounding

/-- Settles O46: the half-multiply and the rounding shifts by the values of their lanes. -/
theorem laneHelpers : Obligations.LaneHelpers := by
  refine ⟨fun w hw a b => ?_, fun w a k => ?_⟩
  · have hpos : 0 < w := (by decide : ∀ w ∈ [8, 16], 0 < w) w hw
    refine ⟨fun ⟨ha, hb⟩ => ?_, fun h => ⟨khm_toInt_of_not_min hpos h, by rw [khm_of_not_min hpos h]⟩⟩
    rw [khm_of_min hpos ha hb]
    exact ⟨BitVec.toInt_intMax, rfl⟩
  · cases k with
    | zero => exact ⟨fun _ => ⟨rShrS_zero a, rShrU_zero a⟩, fun h => absurd rfl h⟩
    | succ k =>
      refine ⟨fun h => absurd h k.succ_ne_zero, fun _ =>
        ⟨rShrS_succ_toInt a k, fun hk => toInt_ediv_pow_emod_two hk a, ?_, ?_, ?_⟩⟩
      · rw [rShrS_succ_toInt, ediv_pow_succ_add_bit, Nat.add_sub_cancel]
      · rw [rShrU_succ_toNat, toNat_div_pow_mod_two, Nat.add_sub_cancel]
      · rw [rShrU_succ_toNat, Nat.add_sub_cancel]
        exact_mod_cast ediv_pow_succ_add_bit a.toNat k

end Sys2Proof.Machine
end

section
/-! The statements of spec/41_base_integer.md: the base integer instructions and the CSR instructions. -/

namespace Sys2Proof.Machine

/-! ## Immediates and registers (R64, R65, R85 to R103) -/

/-- Settles O4: both write one register and go on. -/
theorem upperImmediates : Obligations.UpperImmediates := by
  intro s rd imm20 h v p hp
  simp only [List.mem_cons, List.not_mem_nil, or_false] at hp
  rcases hp with rfl | rfl
  · exact .of (exec_lui ..) (.naming h (.intoXI rfl))
  · exact .of (exec_auipc ..) (.naming h (.intoXI rfl))

/-- Settles O5: each is of a shape that writes one register; a register shift takes its amount modulo XLEN. -/
theorem registerArithmetic : Obligations.RegisterArithmetic := by
  intro s rd rs1 rs2 h a b p hp
  have amount : s.shiftAmount rs2 = b.toNat % s.bits := s.shiftAmount_eq rs2
  simp only [List.mem_cons, List.not_mem_nil, or_false] at hp
  rcases hp with rfl | rfl | rfl | rfl | rfl | rfl | rfl | rfl | rfl | rfl
  · exact .of (exec_add ..) (regOp_writes h rfl)
  · exact .of (exec_sub ..) (regOp_writes h rfl)
  · exact .of (exec_sll ..) (shiftRegOp_writes h (by rw [amount]))
  · exact .of (exec_slt ..) (regOp_writes h (ofBool_slt a b))
  · exact .of (exec_sltu ..) (regOp_writes h (ofBool_ult a b))
  · exact .of (exec_xor ..) (regOp_writes h rfl)
  · exact .of (exec_srl ..) (shiftRegOp_writes h (by rw [amount]))
  · exact .of (exec_sra ..) (shiftRegOp_writes h (by rw [amount]))
  · exact .of (exec_or ..) (regOp_writes h rfl)
  · exact .of (exec_and ..) (regOp_writes h rfl)

/-- Settles O6: the immediate is sign-extended, and a shift amount below XLEN is one the XLEN has. -/
theorem immediateArithmetic : Obligations.ImmediateArithmetic := by
  intro s rd rs1 imm shamt h a b
  have extended : signedImm s.bits 0 imm = b := signedImm_zero imm
  refine ⟨fun p hp => ?_, fun hlt p hp => ?_⟩ <;> simp only [List.mem_cons, List.not_mem_nil, or_false] at hp
  · rcases hp with rfl | rfl | rfl | rfl | rfl | rfl
    · exact .of (exec_addi ..) (immOp_writes h (by rw [extended]))
    · exact .of (exec_slti ..) (immOp_writes h (by rw [extended, ofBool_slt]))
    · exact .of (exec_sltiu ..) (immOp_writes h (by rw [extended, ofBool_ult]))
    · exact .of (exec_xori ..) (immOp_writes h (by rw [extended]))
    · exact .of (exec_ori ..) (immOp_writes h (by rw [extended]))
    · exact .of (exec_andi ..) (immOp_writes h (by rw [extended]))
  · have legal := State.shamtLegal_of_lt hlt
    rcases hp with rfl | rfl | rfl
    · exact .of (exec_slli ..) (shiftImmOp_writes h legal rfl)
    · exact .of (exec_srli ..) (shiftImmOp_writes h legal rfl)
    · exact .of (exec_srai ..) (shiftImmOp_writes h legal rfl)

/-! ## The word instructions of RV64 (R104 to R112) -/

/-- The low word of a register. -/
theorem State.readX_word (s : State) (r : Reg) : s.readX 32 r = (s.readX s.bits r).setWidth 32 :=
  s.readX_low (Nat.le_refl 32) r

/-- Settles O7: the operands are the low words of the registers, and five bits of an amount are the amount modulo 32. -/
theorem wordArithmetic : Obligations.WordArithmetic := by
  intro s rd rs1 rs2 imm shamt hx h a b p hp
  have ha : s.readX 32 rs1 = a := s.readX_word rs1
  have hb : s.readX 32 rs2 = b := s.readX_word rs2
  have amount : (b.setWidth 5).toNat = b.toNat % 32 := BitVec.toNat_setWidth ..
  have h1 : s.mayName [rd, rs1] = true := mayName_of_subset h (by simp)
  simp only [List.mem_cons, List.not_mem_nil, or_false] at hp
  rcases hp with rfl | rfl | rfl | rfl | rfl | rfl | rfl | rfl | rfl
  · exact .of (exec_addiw ..) (wordImmOp_writes hx h1 (by rw [ha, signedImm_zero]))
  · exact .of (exec_slliw ..) (wordImmOp_writes hx h1 (by rw [ha]))
  · exact .of (exec_srliw ..) (wordImmOp_writes hx h1 (by rw [ha]))
  · exact .of (exec_sraiw ..) (wordImmOp_writes hx h1 (by rw [ha]))
  · exact .of (exec_addw ..) (wordRegOp_writes hx h (by rw [ha, hb]))
  · exact .of (exec_subw ..) (wordRegOp_writes hx h (by rw [ha, hb]))
  · exact .of (exec_sllw ..) (wordRegOp_writes hx h (by rw [ha, hb, amount]))
  · exact .of (exec_srlw ..) (wordRegOp_writes hx h (by rw [ha, hb, amount]))
  · exact .of (exec_sraw ..) (wordRegOp_writes hx h (by rw [ha, hb, amount]))

/-! ## Jumps (R66, R67, R379) -/

/-- The two jumps with their targets. -/
def jumps (s : State) (rd rs1 : Reg) (off : BitVec 20) (imm : BitVec 12) : List (Instr × BitVec s.bits) :=
  [(.jal rd off, s.pcVal s.bits + (off ++ 0#1).signExtend s.bits),
    (.jalr rd rs1 imm, (s.readX s.bits rs1 + imm.signExtend s.bits) &&& ~~~1)]

/-- Both jumps take the link, write it and go to the target, which for jalr is of the old register. -/
theorem exec_jumps {s : State} {rd rs1 : Reg} {off : BitVec 20} {imm : BitVec 12} (h : s.mayName [rd, rs1] = true) :
    ∀ p ∈ jumps s rd rs1 off imm, exec p.1 s = s.linking s.bits rd fun link => s.intoXThen true rd link p.2 := by
  intro p hp
  simp only [jumps, List.mem_cons, List.not_mem_nil, or_false] at hp
  rcases hp with rfl | rfl
  · rw [exec_jal, execJal, naming_of_mayName (mayName_of_subset h (by simp))]
    rfl
  · rw [exec_jalr, execJalr, naming_of_mayName h, addrI_eq]
    rfl

/-- An instruction that goes on with a link completes with the link in rd. -/
theorem completes_of_link {i : Instr} {s : State} {rd : Reg} {link t : BitVec s.bits}
    (h : exec i s = .next (s.intoXThen true rd link t)) :
    Completes i s fun u => WritesX s u rd link (s.spBad rd link) t :=
  .of h (.intoXThen rfl rfl)

/-- Settles O8: the link is `pc + 4` outside table-execute or for x0, else the supplied one, and refused while OPEN. -/
theorem jumpAndLink : Obligations.JumpAndLink := by
  intro s rd rs1 off imm h near far
  have jump := exec_jumps (off := off) (imm := imm) h
  refine ⟨fun plain p hp => completes_of_link ((jump p hp).trans ?_),
    fun hte hrd o ho p hp => completes_of_link ((jump p hp).trans ?_), fun hte hrd ho i hi => ?_⟩
  · rcases plain with hte | rfl
    · exact linking_plain hte
    · exact linking_x0
  · rw [linking_supplied hte hrd ho]
    cases o <;> rfl
  · obtain ⟨p, hp, rfl⟩ : ∃ p ∈ jumps s rd rs1 off imm, p.1 = i := List.mem_map.mp hi
    exact (jump p hp).trans (linking_open hte hrd ho)

/-! ## Branches (R68 to R73) -/

/-- Settles O9: a branch goes to its target where the condition holds, and writes nothing. -/
theorem conditionalBranches : Obligations.ConditionalBranches := by
  intro s rs1 rs2 off h a b p hp
  have hne : (a != b) = decide (a ≠ b) := (decide_not ..).symm
  have hslt : (!a.slt b) = decide (b.toInt ≤ a.toInt) := by simp only [BitVec.slt, ← decide_not, Int.not_lt]
  have hult : (!a.ult b) = decide (b.toNat ≤ a.toNat) := by simp only [BitVec.ult, ← decide_not, Nat.not_lt]
  simp only [List.mem_cons, List.not_mem_nil, or_false] at hp
  rcases hp with rfl | rfl | rfl | rfl | rfl | rfl
  · exact .of (exec_beq ..) (branchOp_writes h rfl)
  · exact .of (exec_bne ..) (branchOp_writes h hne)
  · exact .of (exec_blt ..) (branchOp_writes h rfl)
  · exact .of (exec_bge ..) (branchOp_writes h hslt)
  · exact .of (exec_bltu ..) (branchOp_writes h rfl)
  · exact .of (exec_bgeu ..) (branchOp_writes h hult)

/-! ## Loads and stores (R74 to R84) -/

section memory
variable {k : Nat} {i : Instr} {rd rs1 rs2 : Reg} {imm : BitVec 12} {s : State}

theorem loadsFrom_of_loadOp {ext : BitVec (8 * k) → BitVec s.bits} (h : s.mayName [rd, rs1] = true)
    (e : exec i s = loadOp k rd rs1 imm s ext) :
    LoadsFrom i s k (s.readX s.bits rs1 + imm.signExtend s.bits) fun v t =>
      WritesX s t rd (ext v) (s.spBad rd (ext v)) (s.npc s.bits 4) := by
  rw [← addrI_eq]
  obtain ⟨admitted, refused⟩ := loadOp_next (k := k) (imm := imm) (ext := ext) h
  exact ⟨fun ha => .of e (admitted ha), fun ha => e.trans (refused ha)⟩

theorem storesTo_of_storeOp (h : s.mayName [rs2, rs1] = true) (hk : k ≤ 2 ^ 32)
    (e : exec i s = storeOp k rs2 rs1 imm s) :
    StoresTo i s k (s.readX s.bits rs1 + imm.signExtend s.bits) (s.readX (8 * k) rs2) (s.npc s.bits 4) := by
  rw [← addrI_eq]
  obtain ⟨admitted, refused⟩ := storeOp_next (imm := imm) h hk
  exact ⟨fun ha => .of e (admitted ha), fun ha => e.trans (refused ha)⟩

end memory

/-- Settles O10: the seven are loads that differ in their width and extension. -/
theorem integerLoads : Obligations.IntegerLoads := by
  intro s rd rs1 imm h a done
  refine ⟨loadsFrom_of_loadOp h (exec_lb ..), loadsFrom_of_loadOp h (exec_lh ..), loadsFrom_of_loadOp h (exec_lw ..),
    loadsFrom_of_loadOp h (exec_lbu ..), loadsFrom_of_loadOp h (exec_lhu ..), fun hx => ⟨?_, ?_⟩⟩
  · exact loadsFrom_of_loadOp h ((exec_lwu ..).trans (onlyOn_of_eq hx))
  · exact loadsFrom_of_loadOp h ((exec_ld ..).trans (onlyOn_of_eq hx))

/-- Settles O11: the four are stores of the low bytes of the register. -/
theorem integerStores : Obligations.IntegerStores := by
  intro s rs2 rs1 imm h a v
  have low {m : Nat} (hm : m ≤ s.bits) : v.setWidth m = s.readX m rs2 := (s.readX_narrow hm rs2).symm
  have hbits : 32 ≤ s.bits := s.le_bits
  rw [low (m := 8) (by omega), low (m := 16) (by omega), low hbits]
  refine ⟨storesTo_of_storeOp h (by decide) (exec_sb ..), storesTo_of_storeOp h (by decide) (exec_sh ..),
    storesTo_of_storeOp h (by decide) (exec_sw ..), fun hx => ?_⟩
  rw [low (Nat.le_of_eq (State.bits_rv64 hx).symm)]
  exact storesTo_of_storeOp h (by decide) ((exec_sd ..).trans (onlyOn_of_eq hx))

/-! ## Instructions without an effect, the host call and the breakpoint (R113 to R116) -/

/-- Settles O12: the three go on to the next pc. -/
theorem noEffect : Obligations.NoEffect := fun s _ _ _ _ _ _ =>
  ⟨⟨_, exec_fence .., s.proceed_writesNothing 4⟩, ⟨_, exec_fenceI .., s.proceed_writesNothing 4⟩,
    ⟨_, exec_cNop .., s.proceed_writesNothing 2⟩⟩

/-- The host may write the byte at the address (spec/60_exceptions.md R399). -/
def State.hostMayWrite (s : State) (a : Nat) : Bool := decide (a < 2 ^ s.bits) && s.params.admits a 1 .write

theorem State.hostWrites_cons_admitted {s : State} {w : Nat × Byte} (h : s.hostMayWrite w.1 = true)
    (writes : List (Nat × Byte)) :
    s.hostWrites (w :: writes) = ({ s with mem := s.mem.write w.1 w.2 } : State).hostWrites writes :=
  congrArg (List.foldl _ · writes) (if_pos h)

theorem State.hostWrites_cons_refused {s : State} {w : Nat × Byte} (h : ¬s.hostMayWrite w.1 = true)
    (writes : List (Nat × Byte)) : s.hostWrites (w :: writes) = s.hostWrites writes :=
  congrArg (List.foldl _ · writes) (if_neg h)

/-- The last admitted write of the host to a byte (spec/60_exceptions.md R399). -/
def State.lastHostWrite (s : State) (writes : List (Nat × Byte)) (b : Nat) : Option (Nat × Byte) :=
  (writes.filter fun w => w.1 == b && s.hostMayWrite w.1).getLast?

theorem State.lastHostWrite_cons_here {s : State} {w : Nat × Byte} {b : Nat} (h : s.hostMayWrite w.1 = true)
    (hb : w.1 = b) (writes : List (Nat × Byte)) :
    s.lastHostWrite (w :: writes) b = some ((s.lastHostWrite writes b).getD w) := by
  have hw : (w.1 == b && s.hostMayWrite w.1) = true := by rw [h, hb, beq_self_eq_true, Bool.and_self]
  simp only [State.lastHostWrite, List.filter_cons, hw, if_true, List.getLast?_cons]

theorem State.lastHostWrite_cons_other {s : State} {w : Nat × Byte} {b : Nat}
    (h : ¬(w.1 = b ∧ s.hostMayWrite w.1 = true)) (writes : List (Nat × Byte)) :
    s.lastHostWrite (w :: writes) b = s.lastHostWrite writes b := by
  have hw : ¬(w.1 == b && s.hostMayWrite w.1) = true := by rwa [Bool.and_eq_true, beq_iff_eq]
  simp only [State.lastHostWrite, List.filter_cons, if_neg hw]

/-- A byte after the host's writes: the last admitted one to it, or else the byte before. -/
theorem State.read_hostWrites (s : State) (writes : List (Nat × Byte)) (b : Nat) :
    (s.hostWrites writes).read b = (s.lastHostWrite writes b).elim (s.mem.read b) Prod.snd := by
  induction writes generalizing s with
  | nil => rfl
  | cons w writes ih =>
    by_cases hw : s.hostMayWrite w.1 = true
    · have later : (s.hostWrites (w :: writes)).read b =
          (s.lastHostWrite writes b).elim ((s.mem.write w.1 w.2).read b) Prod.snd := by
        rw [State.hostWrites_cons_admitted hw, ih]
        rfl
      rw [later]
      by_cases hb : w.1 = b
      · rw [State.lastHostWrite_cons_here hw hb, hb, Memory.read_write_same]
        cases s.lastHostWrite writes b <;> rfl
      · rw [State.lastHostWrite_cons_other fun h => hb h.1, Memory.read_write_ne _ _ _ _ (Ne.symm hb)]
    · rw [State.hostWrites_cons_refused hw, ih, State.lastHostWrite_cons_other fun h => hw h.2]

/-- A result of the host: memory takes its writes, x10 its value. -/
theorem takeAnswer_result_writesX (s : State) (r : Word) (writes : List (Nat × Byte)) :
    WritesX { s with mem := s.hostWrites writes, draws := s.draws + 1 } (s.takeAnswer (.result r writes)) 10
      (r.setWidth s.bits) false (s.npc s.bits 4) :=
  State.intoXI_writesX { s with mem := s.hostWrites writes, draws := s.draws + 1 } 10 (r.setWidth s.bits)

/-- Settles O13: the request is the model's, and each answer is taken as its own law says. -/
theorem hostCall : Obligations.HostCall := by
  intro s x request
  have call : exec .ecall s = .next (s.takeAnswer (Config.hostAnswer s.draws request)) := exec_ecall s
  split
  · next r writes answer =>
    rw [answer] at call
    have written := takeAnswer_result_writesX s r writes
    have hmem : (s.takeAnswer (.result r writes)).mem = s.hostWrites writes := by
      simp [State.takeAnswer, State.intoXI, State.intoXThen]
    refine ⟨_, call, fun b => ?_, by rw [hmem]; exact written⟩
    rw [hmem, s.read_hostWrites]
    simp only [State.lastHostWrite, State.hostMayWrite, ← Bool.and_assoc]
    split
    · next last => rw [last]; rfl
    · next last => rw [last]; rfl
  · next answer => rw [call, answer]; rfl

/-- Settles O14: both take the exception Breakpoint, which halts the hart and changes nothing else. -/
theorem breakpoints : Obligations.Breakpoints := fun s => ⟨exec_ebreak s, exec_cEbreak s⟩

/-! ## CSR instructions (R117 to R122) -/

/-- Settles O15: each is a CSR access whose new value is of the old one and the operand. -/
theorem csrInstructions : Obligations.CsrInstructions := by
  intro s rd rs1 uimm number c h hc hx old a u p hp
  have h1 : s.mayName [rd] = true := mayName_of_subset h (by simp)
  have operand : unsignedImm s.bits 0 uimm = u := unsignedImm_zero uimm
  simp only [List.mem_cons, List.not_mem_nil, or_false] at hp
  rcases hp with rfl | rfl | rfl | rfl | rfl | rfl
  · exact .of (exec_csrrw ..) (.naming h (csrAccess_writes hc hx rfl))
  · exact .of (exec_csrrs ..) (.naming h (csrAccess_writes hc hx rfl))
  · exact .of (exec_csrrc ..) (.naming h (csrAccess_writes hc hx rfl))
  · exact .of (exec_csrrwi ..) (.naming h1 (csrAccess_writes hc hx operand))
  · exact .of (exec_csrrsi ..) (.naming h1 (csrAccess_writes hc hx (by rw [operand])))
  · exact .of (exec_csrrci ..) (.naming h1 (csrAccess_writes hc hx (by rw [operand])))

end Sys2Proof.Machine
end

section
/-! The statements of spec/42_compressed.md: the compressed arithmetic, memory and control instructions. -/

namespace Sys2Proof.Machine

/-! ## Arithmetic (R123, R133, R135 to R147, R151, R157, R160) -/

/-- Settles O18: a full field is a register that may be named and a primed one always may; each is of a shape that writes one
register and checks x2. -/
theorem compressedArithmetic : Obligations.CompressedArithmetic := by
  intro s rd rs2 cd cs imm nz h x w done
  have hrd : s.mayName [rd] = true := mayName_of_subset h (by simp)
  have extended {n : Nat} : signedImm n 0 imm = imm.signExtend n := signedImm_zero imm
  refine ⟨fun p hp => ?_, fun hlt p hp => ?_, fun hx p hp => ?_⟩ <;>
    simp only [List.mem_cons, List.not_mem_nil, or_false] at hp
  · rcases hp with rfl | rfl | rfl | rfl | rfl | rfl | rfl | rfl | rfl | rfl | rfl | rfl
    · exact .of (exec_cAddi4spn ..) (.intoXC rfl)
    · exact .of (exec_cAddi ..) (.naming hrd (.intoXC (by rw [extended])))
    · exact .of (exec_cLi ..) (.naming hrd (.intoXC extended))
    · exact .of (exec_cAddi16sp ..) (.intoXC rfl)
    · exact .of (exec_cLui ..) (.naming hrd (.intoXC rfl))
    · exact .of (exec_cAndi ..) (.intoXC (by rw [extended]))
    · exact .of (exec_cSub ..) (cRegOp_writes rfl)
    · exact .of (exec_cXor ..) (cRegOp_writes rfl)
    · exact .of (exec_cOr ..) (cRegOp_writes rfl)
    · exact .of (exec_cAnd ..) (cRegOp_writes rfl)
    · exact .of (exec_cMv ..) (.naming h (.intoXC rfl))
    · exact .of (exec_cAdd ..) (.naming h (.intoXC rfl))
  · have legal := State.shamtLegal_of_lt hlt
    rcases hp with rfl | rfl | rfl
    · exact .of (exec_cSlli ..) (cShiftOp_writes hrd legal rfl)
    · exact .of (exec_cSrli ..) (cShiftOp_writes (CReg.mayName s cd) legal rfl)
    · exact .of (exec_cSrai ..) (cShiftOp_writes (CReg.mayName s cd) legal rfl)
  · have word (r : Reg) : s.readX 32 r = w r := s.readX_word r
    rcases hp with rfl | rfl | rfl
    · exact .of (exec_cAddiw ..) (.onlyOn hx (.naming hrd (.intoXC (by rw [wordResult, word, extended]))))
    · exact .of (exec_cSubw ..) (cWordOp_writes hx (by rw [word, word]))
    · exact .of (exec_cAddw ..) (cWordOp_writes hx (by rw [word, word]))

/-! ## Loads and stores -/

section memory
variable {i : Instr} {s : State} {k n : Nat} {a : BitVec n}

/-- A load whose rest has a property of the bytes read. -/
theorem loadsFrom_of_loading {go : BitVec (8 * k) → State} {p : BitVec (8 * k) → State → Prop} (h : ∀ v, p v (go v))
    (e : exec i s = .next (s.loading k a go)) : LoadsFrom i s k a p := by
  obtain ⟨admitted, refused⟩ := loading_next (s := s) (a := a) h
  exact ⟨fun ha => .of e (admitted ha), fun ha => e.trans (refused ha)⟩

/-- A store that then goes on to the next pc. -/
theorem storesTo_of_storing {v w : BitVec (8 * k)} {l : BitVec n} (hk : k ≤ 2 ^ n) (value : v = w)
    (e : exec i s = .next (s.storing k a v fun t => t.proceed l)) : StoresTo i s k a w (s.npc n l) := by
  subst value
  obtain ⟨admitted, refused⟩ := storing_next (s := s) (a := a) (v := v) (l := l) hk
  exact ⟨fun ha => .of e (admitted ha), fun ha => e.trans (refused ha)⟩

end memory

/-! ## Integer loads and stores (R125, R127, R129, R131, R153, R155, R162, R164) -/

section integer
variable {k : Nat} {i : Instr} {rd rs2 : Reg} {s : State} {a : BitVec s.bits}

/-- A compressed load writes the bytes read as `ext` gives them, which is their sign-extension. -/
theorem loadsFrom_of_cLoad {ext : BitVec (8 * k) → BitVec s.bits} (h : s.mayName [rd] = true)
    (value : ∀ v, v.signExtend s.bits = ext v) (e : exec i s = cLoad k rd s a) :
    LoadsFrom i s k a fun v t => WritesX s t rd (ext v) (s.spBad rd (ext v)) (s.npc s.bits 2) :=
  loadsFrom_of_loading (fun v => value v ▸ s.intoXC_writesX rd _) (e.trans (naming_of_mayName h))

theorem storesTo_of_cStore (h : s.mayName [rs2] = true) (hk : k ≤ 2 ^ 32) (e : exec i s = cStore k rs2 s a) :
    StoresTo i s k a (s.readX (8 * k) rs2) (s.npc s.bits 2) :=
  storesTo_of_storing (s.bytes_le_space k hk) rfl (e.trans (naming_of_mayName h))

end integer

/-- Settles O19: the eight are loads and stores at the base plus the scaled offset; 8 bytes fill a register of RV64. -/
theorem compressedIntegerMemory : Obligations.CompressedIntegerMemory := by
  intro s r cr cs u5 u6 h n x w5 d5 w6 d6 done
  have hcr : s.mayName [cr.reg] = true := CReg.mayName s cr
  have low {m : Nat} (hm : m ≤ s.bits) (q : Reg) : (x q).setWidth m = s.readX m q := (s.readX_narrow hm q).symm
  rw [low s.le_bits, low s.le_bits]
  refine ⟨loadsFrom_of_cLoad hcr (fun _ => rfl) (exec_cLw ..), loadsFrom_of_cLoad h (fun _ => rfl) (exec_cLwsp ..),
    storesTo_of_cStore hcr (by decide) (exec_cSw ..), storesTo_of_cStore h (by decide) (exec_cSwsp ..), fun hx => ?_⟩
  have whole (v : BitVec 64) : v.signExtend s.bits = v.setWidth s.bits := v.signExtend_eq_setWidth_of_le s.bits_le
  have h64 : 64 ≤ s.bits := Nat.le_of_eq (State.bits_rv64 hx).symm
  rw [low h64, low h64]
  exact ⟨loadsFrom_of_cLoad hcr whole ((exec_cLd ..).trans (onlyOn_of_eq hx)),
    loadsFrom_of_cLoad h whole ((exec_cLdsp ..).trans (onlyOn_of_eq hx)),
    storesTo_of_cStore hcr (by decide) ((exec_cSd ..).trans (onlyOn_of_eq hx)),
    storesTo_of_cStore h (by decide) ((exec_cSdsp ..).trans (onlyOn_of_eq hx))⟩

/-! ## Floating-point loads and stores (R124, R126, R128, R130, R152, R154, R161, R163) -/

/-- A load into a view of a floating-point register, the bytes read as `view` gives them. -/
theorem loadsFrom_of_intoF {i : Instr} {r : Reg} {s : State} {n : Nat} {a l : BitVec n} (fmt : Fmt)
    {view : BitVec (8 * (fmt.bits / 8)) → BitVec fmt.bits} (value : ∀ v, v.setWidth fmt.bits = view v)
    (e : exec i s = .next (s.loading (fmt.bits / 8) a fun v => s.intoF fmt l r (v.setWidth fmt.bits))) :
    LoadsFrom i s (fmt.bits / 8) a fun v t => WritesF s t fmt r (view v) 0 (s.npc n l) :=
  loadsFrom_of_loading (fun v => value v ▸ s.intoF_writesF fmt l r _) e

/-- Settles O20: the eight are loads into a view and stores of one, whose width is that of the bytes moved. -/
theorem compressedFloatMemory : Obligations.CompressedFloatMemory := by
  intro s r cr cs u5 u6 n x w5 d5 w6 d6
  have h8 : 8 ≤ 2 ^ s.bits := s.bytes_le_space 8 (by decide)
  have h4 : 4 ≤ 2 ^ s.bits := s.bytes_le_space 4 (by decide)
  have whole {m : Nat} (v : BitVec m) : v.setWidth m = v := v.setWidth_eq
  refine ⟨loadsFrom_of_intoF .d whole (exec_cFld ..), loadsFrom_of_intoF .d whole (exec_cFldsp ..),
    storesTo_of_storing h8 (whole _) (exec_cFsd ..), storesTo_of_storing h8 (whole _) (exec_cFsdsp ..), fun hx => ?_⟩
  exact ⟨loadsFrom_of_intoF .s whole ((exec_cFlw ..).trans (onlyOn_of_eq hx)),
    loadsFrom_of_intoF .s whole ((exec_cFlwsp ..).trans (onlyOn_of_eq hx)),
    storesTo_of_storing h4 (whole _) ((exec_cFsw ..).trans (onlyOn_of_eq hx)),
    storesTo_of_storing h4 (whole _) ((exec_cFswsp ..).trans (onlyOn_of_eq hx))⟩

/-! ## Jumps and branches (R134, R148 to R150, R156, R159) -/

/-- The link register is not x2, so the check of x2 passes. -/
theorem NextWith.linkRa {n : Nat} {s : State} {v t : BitVec n} :
    NextWith (.next (s.intoXThen true Reg.ra v t)) fun u => WritesX s u 1 v false t :=
  .intoXThen rfl rfl

/-- Settles O21: a jump retires at its target, with a link of `pc + 2` where it has one; a branch asks whether its register is
zero. -/
theorem compressedControl : Obligations.CompressedControl := by
  intro s r cr off off8 h pc near near8 far zero
  refine ⟨⟨_, exec_cJ .., s.retire_writesNothing _⟩, .of (exec_cJr ..) (.naming h ⟨_, rfl, s.retire_writesNothing _⟩),
    fun hz => ⟨?_, ?_⟩, fun hz => ⟨?_, ?_⟩, .of (exec_cJalr ..) (.naming h .linkRa),
    fun hx => .of (exec_cJal ..) (.onlyOn hx .linkRa)⟩
  · exact .of (exec_cBeqz ..) (cBranchOp_writes (b := true) (beq_iff_eq.mpr hz))
  · exact .of (exec_cBnez ..) (cBranchOp_writes (b := false) (bne_eq_false_iff_eq.mpr hz))
  · exact .of (exec_cBeqz ..) (cBranchOp_writes (b := false) (beq_eq_false_iff_ne.mpr hz))
  · exact .of (exec_cBnez ..) (cBranchOp_writes (b := true) (bne_iff_ne.mpr hz))

end Sys2Proof.Machine
end

section
/-! The statements of spec/43_muldiv.md: the multiplications and divisions. -/

namespace Sys2Proof.Machine

/-! ## The upper half of a product (R166 to R168) -/

theorem highHalf_eq_ediv (n : Nat) (p : Int) : highHalf n p = BitVec.ofInt n (p / 2 ^ n) := by
  rw [highHalf, int_shiftRight_eq_ediv]

/-- The upper half of an unsigned product is the quotient of natural numbers. -/
theorem highHalf_natCast_mul (n a b : Nat) : highHalf n ((a : Int) * b) = BitVec.ofNat n (a * b / 2 ^ n) := by
  rw [highHalf_eq_ediv, ← BitVec.ofInt_natCast, Int.natCast_ediv, Int.natCast_mul, natCast_two_pow]

/-! ## Signed division (R169, R171) -/

section signedDivision
variable {w : Nat} {a b : BitVec w}

theorem eq_allOnes_iff (hw : 0 < w) : b = BitVec.allOnes w ↔ b.toInt = -1 := by
  rw [← BitVec.toInt_inj, BitVec.toInt_allOnes, if_pos hw]

/-- MIN by -1 is the same case in words and in integers. -/
theorem min_by_neg_one_iff (hw : 0 < w) :
    (a = BitVec.intMin w ∧ b = BitVec.allOnes w) ↔ (a.toInt = -2 ^ (w - 1) ∧ b.toInt = -1) :=
  and_congr (eq_intMin_iff hw) (eq_allOnes_iff hw)

/-- The quotient of MIN by -1 is the dividend. -/
theorem divS_eq (hw : 0 < w) (a b : BitVec w) :
    divS a b = if b = 0 then BitVec.allOnes w
      else if a.toInt = -2 ^ (w - 1) ∧ b.toInt = -1 then a else BitVec.ofInt w (a.toInt.tdiv b.toInt) := by
  unfold divS
  by_cases hmin : a = BitVec.intMin w ∧ b = BitVec.allOnes w
  · rw [if_pos hmin, if_pos ((min_by_neg_one_iff hw).mp hmin), hmin.1]
  · rw [if_neg hmin, if_neg (mt (min_by_neg_one_iff hw).mpr hmin)]

/-- The remainder of MIN by -1 is 0, as that of any dividend by -1. -/
theorem remS_eq (hw : 0 < w) (a b : BitVec w) :
    remS a b = if b = 0 then a else BitVec.ofInt w (a.toInt.tmod b.toInt) := by
  unfold remS
  by_cases hmin : a = BitVec.intMin w ∧ b = BitVec.allOnes w
  · have hb : b.toInt = -1 := (eq_allOnes_iff hw).mp hmin.2
    rw [if_pos hmin, hb, Int.tmod_neg, Int.tmod_one]
    rfl
  · rw [if_neg hmin, Int.tmod_def, Int.mul_comm b.toInt]

end signedDivision

/-! ## The instructions -/

/-- Settles O22: each is of the shape that writes one register and does not check x2, with its value on XLEN bits. -/
theorem multiplyDivide : Obligations.MultiplyDivide := by
  intro s rd rs1 rs2 h n a b p hp
  have hn : 0 < n := Nat.lt_of_lt_of_le (by decide) s.le_bits
  simp only [List.mem_cons, List.not_mem_nil, or_false] at hp
  rcases hp with rfl | rfl | rfl | rfl | rfl | rfl | rfl | rfl
  · exact .of (exec_mul ..) (mulOp_writes h rfl)
  · exact .of (exec_mulh ..) (mulOp_writes h (highHalf_eq_ediv ..))
  · exact .of (exec_mulhsu ..) (mulOp_writes h (highHalf_eq_ediv ..))
  · exact .of (exec_mulhu ..) (mulOp_writes h (highHalf_natCast_mul ..))
  · exact .of (exec_div ..) (mulOp_writes h (divS_eq hn a b))
  · exact .of (exec_divu ..) (mulOp_writes h rfl)
  · exact .of (exec_rem ..) (mulOp_writes h (remS_eq hn a b))
  · exact .of (exec_remu ..) (mulOp_writes h rfl)

/-- Settles O23: the operands are the low words of the registers, and the values those of a width of 32. -/
theorem multiplyDivideWord : Obligations.MultiplyDivideWord := by
  intro s rd rs1 rs2 hx h a b p hp
  have ha : s.readX 32 rs1 = a := s.readX_word rs1
  have hb : s.readX 32 rs2 = b := s.readX_word rs2
  have hw : 0 < 32 := by decide
  simp only [List.mem_cons, List.not_mem_nil, or_false] at hp
  rcases hp with rfl | rfl | rfl | rfl | rfl
  · exact .of (exec_mulw ..) (mulWordOp_writes hx h (by rw [ha, hb]))
  · exact .of (exec_divw ..) (mulWordOp_writes hx h (by rw [ha, hb, divS_eq hw]))
  · exact .of (exec_divuw ..) (mulWordOp_writes hx h (by rw [ha, hb, divU]))
  · exact .of (exec_remw ..) (mulWordOp_writes hx h (by rw [ha, hb, remS_eq hw]))
  · exact .of (exec_remuw ..) (mulWordOp_writes hx h (by rw [ha, hb, remU]))

end Sys2Proof.Machine
end

section
/-! The statements of spec/44_atomic.md: load-reserved, store-conditional, the atomic memory operations, and the reservation
set that every other instruction keeps. -/

namespace Sys2Proof.Machine

@[simp] theorem State.intoX_mem {n : Nat} (s : State) (rd : Reg) (v : BitVec n) : (s.intoX rd v).mem = s.mem := by
  simp [State.intoX, State.intoXThen]

@[simp] theorem State.intoX_resv {n : Nat} (s : State) (rd : Reg) (v : BitVec n) : (s.intoX rd v).resv = s.resv := by
  simp [State.intoX, State.intoXThen]

/-! ## The shapes (R178, R179, R182 to R184) -/

section shapes
variable {k : Nat} {i : Instr} {rd rs2 rs1 : Reg} {s : State}

/-- A load-reserved makes the reservation, then writes the bytes read as `ext` gives them, which is their sign-extension. -/
theorem loadsFrom_of_lrOp {ext : BitVec (8 * k) → BitVec s.bits} (h : s.mayName [rd, rs1] = true)
    (value : ∀ v, v.signExtend s.bits = ext v) (e : exec i s = lrOp k rd rs1 s) :
    LoadsFrom i s k (s.readX s.bits rs1) fun v t =>
      (∀ b, b ∈ t.resv ↔ b = (s.readX s.bits rs1).toNat ∨ b ∈ s.resv) ∧
      WritesX { s with resv := t.resv } t rd (ext v) false (s.npc s.bits 4) := by
  refine loadsFrom_of_loading (fun v => ?_) (e.trans (naming_of_mayName h))
  rw [value, State.intoX_resv]
  exact ⟨fun b => reserve_mem s _ b, State.intoX_writesX _ rd _⟩

theorem scOp_of_not_reserved (h : s.mayName [rd, rs2, rs1] = true) (ha : (s.readX s.bits rs1).toNat ∉ s.resv) :
    scOp k rd rs2 rs1 s = .next (s.intoX rd (1 : BitVec s.bits)) :=
  (naming_of_mayName h).trans (congrArg _ (if_neg (mt (reserved_iff s _).mp ha)))

theorem scOp_of_reserved (h : s.mayName [rd, rs2, rs1] = true) (ha : (s.readX s.bits rs1).toNat ∈ s.resv) :
    scOp k rd rs2 rs1 s = .next (s.storing k (s.readX s.bits rs1) (s.readX (8 * k) rs2) fun t =>
      (t.release (s.readX s.bits rs1).toNat).intoX rd (0 : BitVec s.bits)) :=
  (naming_of_mayName h).trans (congrArg _ (if_pos ((reserved_iff s _).mpr ha)))

/-- A store-conditional fails where its address is not reserved; else it stores, releases the address and succeeds, or is
stuck at the request. -/
theorem scOp_rule (h : s.mayName [rd, rs2, rs1] = true) (hk : k ≤ 2 ^ 32) (e : exec i s = scOp k rd rs2 rs1 s) :
    let a := s.readX s.bits rs1
    (a.toNat ∉ s.resv → Completes i s fun t => WritesX s t rd 1 false (s.npc s.bits 4)) ∧
    (a.toNat ∈ s.resv → s.params.admits a.toNat k .write = true → Completes i s fun t =>
      StoresBytes s t a (s.readX (8 * k) rs2) ∧ (∀ b, b ∈ t.resv ↔ b ≠ a.toNat ∧ b ∈ s.resv) ∧
      WritesX { s with mem := t.mem, resv := t.resv } t rd 0 false (s.npc s.bits 4)) ∧
    (a.toNat ∈ s.resv → s.params.admits a.toNat k .write = false → exec i s = .next s.nowStuck) := by
  intro a
  refine ⟨fun ha => .of (e.trans (scOp_of_not_reserved h ha)) (.intoX rfl), fun ha hw => ?_, fun ha hw => ?_⟩ <;>
    rw [scOp_of_reserved h ha] at e
  · rw [State.storing_admitted hw] at e
    refine ⟨_, e, .of_store (s.bytes_le_space k hk) (State.intoX_mem ..), ?_⟩
    rw [State.intoX_mem, State.intoX_resv]
    exact ⟨fun b => release_mem _ _ b, State.intoX_writesX _ rd _⟩
  · rw [e, State.storing_refused hw]

theorem amoOp_of_mayName {f : BitVec (8 * k) → BitVec (8 * k) → BitVec (8 * k)} (h : s.mayName [rd, rs2, rs1] = true) :
    amoOp k rd rs2 rs1 s f = .next (s.loading k (s.readX s.bits rs1) fun old =>
      s.storing k (s.readX s.bits rs1) (f old (s.readX (8 * k) rs2)) fun t => t.intoX rd (old.signExtend s.bits)) :=
  naming_of_mayName h

/-- An atomic memory operation loads, stores the new value and writes the old one, or is stuck at either request. -/
theorem amoOp_rule {f : BitVec (8 * k) → BitVec (8 * k) → BitVec (8 * k)} {new : BitVec (8 * k)}
    (h : s.mayName [rd, rs2, rs1] = true) (hk : k ≤ 2 ^ 32) (e : exec i s = amoOp k rd rs2 rs1 s f)
    (value : f (s.mem.load (s.readX s.bits rs1) k) (s.readX (8 * k) rs2) = new) :
    let a := s.readX s.bits rs1
    (s.params.admits a.toNat k .read = true → s.params.admits a.toNat k .write = true → Completes i s fun t =>
      StoresBytes s t a new ∧
      WritesX { s with mem := t.mem } t rd ((s.mem.load a k).signExtend s.bits) false (s.npc s.bits 4)) ∧
    (s.params.admits a.toNat k .read = false ∨ s.params.admits a.toNat k .write = false →
      exec i s = .next s.nowStuck) := by
  intro a
  rw [amoOp_of_mayName h] at e
  cases hr : s.params.admits a.toNat k .read
  · rw [State.loading_refused hr] at e
    exact ⟨nofun, fun _ => e⟩
  · rw [State.loading_admitted hr, value] at e
    cases hw : s.params.admits a.toNat k .write
    · rw [State.storing_refused hw] at e
      exact ⟨nofun, fun _ => e⟩
    · rw [State.storing_admitted hw] at e
      refine ⟨fun _ _ => ⟨_, e, .of_store (s.bytes_le_space k hk) (State.intoX_mem ..), ?_⟩, nofun⟩
      rw [State.intoX_mem]
      exact State.intoX_writesX _ rd _

end shapes

/-! ## The instructions -/

/-- Settles O24: both are of the shape of a load-reserved; 8 bytes fill a register of RV64. -/
theorem loadReserved : Obligations.LoadReserved := by
  intro s rd rs1 aq rl h a done
  have whole (v : BitVec 64) : v.signExtend s.bits = v.setWidth s.bits := v.signExtend_eq_setWidth_of_le s.bits_le
  exact ⟨loadsFrom_of_lrOp h (fun _ => rfl) (exec_lrW ..),
    fun hx => loadsFrom_of_lrOp h whole ((exec_lrD ..).trans (onlyOn_of_eq hx))⟩

/-- The low double word of a register of RV64, which is the whole of it. -/
theorem State.readX_doubleWord {s : State} (hx : s.params.xlen = .rv64) (r : Reg) :
    s.readX 64 r = (s.readX s.bits r).setWidth 64 :=
  s.readX_narrow (Nat.le_of_eq (State.bits_rv64 hx).symm) r

/-- Settles O25: both are of the shape of a store-conditional, and store the low bytes of the register. -/
theorem storeConditional : Obligations.StoreConditional := by
  intro s rd rs2 rs1 aq rl h a rule
  rw [← s.readX_word rs2]
  refine ⟨scOp_rule h (by decide) (exec_scW ..), fun hx => ?_⟩
  rw [← State.readX_doubleWord hx rs2]
  exact scOp_rule h (by decide) ((exec_scD ..).trans (onlyOn_of_eq hx))

/-! The minima and maxima compare words by their integers (R189, R190) or natural numbers (R191, R192). -/

theorem ite_slt {w : Nat} {α : Type} (x y : BitVec w) (p q : α) :
    (if x.slt y then p else q) = if x.toInt < y.toInt then p else q := by
  simp only [BitVec.slt_iff_toInt_lt]

theorem ite_ult {w : Nat} {α : Type} (x y : BitVec w) (p q : α) :
    (if x.ult y then p else q) = if x.toNat < y.toNat then p else q := by
  simp only [BitVec.ult_iff_toNat_lt]

/-- Settles O26: each is of the shape of an atomic memory operation; the minima and maxima compare by value. -/
theorem atomicUpdates : Obligations.AtomicUpdates := by
  intro s rd rs2 rs1 aq rl h a rule
  rw [← s.readX_word rs2]
  refine ⟨fun p hp => ?_, fun hx => ?_⟩
  · have word {i f new} := amoOp_rule (k := 4) (i := i) (f := f) (new := new) h (by decide)
    simp only [List.mem_cons, List.not_mem_nil, or_false] at hp
    rcases hp with rfl | rfl | rfl | rfl | rfl | rfl | rfl | rfl | rfl
    · exact word (exec_amoswapW ..) rfl
    · exact word (exec_amoaddW ..) rfl
    · exact word (exec_amoxorW ..) rfl
    · exact word (exec_amoandW ..) rfl
    · exact word (exec_amoorW ..) rfl
    · exact word (exec_amominW ..) (ite_slt ..)
    · exact word (exec_amomaxW ..) (ite_slt ..)
    · exact word (exec_amominuW ..) (ite_ult ..)
    · exact word (exec_amomaxuW ..) (ite_ult ..)
  · rw [← State.readX_doubleWord hx rs2]
    have double {i f new} (e : exec i s = onlyOn .rv64 s (amoOp 8 rd rs2 rs1 s f)) :=
      amoOp_rule (new := new) h (by decide) (e.trans (onlyOn_of_eq hx))
    intro p hp
    simp only [List.mem_cons, List.not_mem_nil, or_false] at hp
    rcases hp with rfl | rfl | rfl | rfl | rfl | rfl | rfl | rfl | rfl
    · exact double (exec_amoswapD ..) rfl
    · exact double (exec_amoaddD ..) rfl
    · exact double (exec_amoxorD ..) rfl
    · exact double (exec_amoandD ..) rfl
    · exact double (exec_amoorD ..) rfl
    · exact double (exec_amominD ..) (ite_slt ..)
    · exact double (exec_amomaxD ..) (ite_slt ..)
    · exact double (exec_amominuD ..) (ite_ult ..)
    · exact double (exec_amomaxuD ..) (ite_ult ..)

/-! ## Every other instruction (R180) -/

theorem resv_eq_of_exec_next {i : Instr} {s t : State} (h : exec i s = .next t) (hi : i.changesResv = false) :
    t.resv = s.resv :=
  (exec_next_keeps h).resvSame hi

/-- Settles O51: an instruction outside the five keeps the reservation set, as its `May` says. -/
theorem reservationsKept : Obligations.ReservationsKept := by
  intro i s t h
  cases i
  case lrW | lrD | scW | scD | execIt => trivial
  all_goals exact resv_eq_of_exec_next h rfl

end Sys2Proof.Machine
end

section
/-! The statements of spec/45_float.md and spec/46_float_half_bf16.md about the instructions: each is of a shape with a law of
its own, in one of the three formats. -/

namespace Sys2Proof.Machine

/-! ## Results under a rounding mode (R204, R205) -/

section rounded
variable {i : Instr} {rd rs1 : Reg} {rm : BitVec 3} {s : State} {fmt : Fmt}

/-- An instruction that takes its rounding mode and goes on: with a mode it completes, with none it is refused. -/
theorem rounding_rule {go : Rm → State} {p : Rm → State → Prop} (h : ∀ m, p m (go m)) (e : exec i s = rounding rm s go) :
    (∀ m, s.rmEff rm = some m → Completes i s (p m)) ∧
    (s.rmEff rm = none → exec i s = .refused .reservedRoundingMode) := by
  obtain ⟨next, refused⟩ := rounding_next (rm := rm) (s := s) h
  exact ⟨fun m hm => .of e (next m hm), fun hm => e.trans (refused hm)⟩

/-- A rounded result goes to a view, with the flags of its call. -/
theorem rounded_rule {call : Rm → FpuCall} {v : Rm → BitVec fmt.bits}
    (e : exec i s = rounding rm s fun m => s.intoFpu fmt rd (call m) (v m)) :
    (∀ m, s.rmEff rm = some m → Completes i s fun t =>
      WritesF s t fmt rd (v m) (Config.fpuFlags (call m)) (s.npc s.bits 4)) ∧
    (s.rmEff rm = none → exec i s = .refused .reservedRoundingMode) :=
  rounding_rule (fun m => s.intoFpu_writesF fmt rd (call m) (v m)) e

/-- A conversion to an integer writes the general register, with the flags of its call. -/
theorem floatToInt_rule {kind : IntKind} (h : s.mayName [rd] = true) (e : exec i s = floatToInt fmt kind rd rs1 rm s) :
    let a := s.readF fmt rs1
    let call : Rm → FpuCall := fun m => .toInt fmt kind m (a.setWidth 64)
    (∀ m, s.rmEff rm = some m →
      let r : BitVec kind.bits := (exactToInt fmt kind a).getD ((Config.fpu (call m)).setWidth kind.bits)
      Completes i s fun t =>
        WritesX { s with hart := { s.hart with fflags := s.hart.fflags ||| Config.fpuFlags (call m) } } t rd
          (r.signExtend s.bits) false (s.npc s.bits 4)) ∧
    (s.rmEff rm = none → exec i s = .refused .reservedRoundingMode) :=
  rounding_rule (fun _ => accrue_intoX_writesX) (e.trans (naming_of_mayName h))

/-- A conversion from an integer reads the low bits of the general register, which has at least those of the kind. -/
theorem floatFromInt_rule {kind : IntKind} (h : s.mayName [rs1] = true) (hk : kind.bits = 64 → s.params.xlen = .rv64)
    (e : exec i s = floatFromInt fmt kind rd rs1 rm s) :
    let a : BitVec kind.bits := (s.readX s.bits rs1).setWidth kind.bits
    let call : Rm → FpuCall := fun m => .fromInt fmt kind m (a.setWidth 64)
    (∀ m, s.rmEff rm = some m → Completes i s fun t =>
      WritesF s t fmt rd ((exactFromInt fmt kind a).getD ((Config.fpu (call m)).setWidth fmt.bits))
        (Config.fpuFlags (call m)) (s.npc s.bits 4)) ∧
    (s.rmEff rm = none → exec i s = .refused .reservedRoundingMode) := by
  have hbits : kind.bits = 32 ∨ kind.bits = 64 := by cases kind <;> decide
  have hle : kind.bits ≤ s.bits := by
    rcases hbits with h32 | h64
    · exact h32 ▸ s.le_bits
    · exact Nat.le_of_eq (h64.trans (State.bits_rv64 (hk h64)).symm)
  rw [← s.readX_narrow hle rs1]
  exact rounded_rule (e.trans (naming_of_mayName h))

end rounded

/-! ## Sign injection (R219 to R221, R249 to R251, R281 to R283) -/

/-- The mask of the sign bit is that bit alone. -/
theorem getLsbD_signMask {w : Nat} (sign : Bool) (i : Nat) :
    (if sign then BitVec.intMin w else 0).getLsbD i = (sign && decide (i + 1 = w)) := by
  cases sign
  · simp
  · simp [BitVec.getLsbD_intMin]

/-- Bit by bit: the sign bit is the given one, the others stay. -/
theorem getLsbD_withSign {w i : Nat} (hi : i < w) (v : BitVec w) (sign : Bool) :
    (withSign v sign).getLsbD i = if i + 1 = w then sign else v.getLsbD i := by
  rw [withSign, BitVec.getLsbD_or, getLsbD_signMask, BitVec.getLsbD_and, BitVec.getLsbD_not, BitVec.getLsbD_intMin]
  by_cases hs : i + 1 = w
  · simp [hs]
  · simp [hs, hi]

theorem msb_withSign {w : Nat} (hw : 0 < w) (v : BitVec w) (sign : Bool) : (withSign v sign).msb = sign := by
  rw [BitVec.msb_eq_getLsbD_last, getLsbD_withSign (by omega), if_pos (by omega)]

/-- A sign injection sets the sign, keeps the bits below it and raises no flag. -/
theorem floatSign_rule {i : Instr} {fmt : Fmt} {rd rs1 rs2 : Reg} {s : State} {f : Bool → Bool → Bool}
    (e : exec i s = floatSign fmt rd rs1 rs2 s f) :
    let a := s.readF fmt rs1
    let b := s.readF fmt rs2
    ∃ v : BitVec fmt.bits, v.msb = f a.msb b.msb ∧ (∀ j, j < fmt.bits - 1 → v.getLsbD j = a.getLsbD j) ∧
      Completes i s fun t => WritesF s t fmt rd v 0 (s.npc s.bits 4) := by
  intro a b
  have hw : 0 < fmt.bits := by cases fmt <;> decide
  refine ⟨withSign a (f a.msb b.msb), msb_withSign hw .., fun j hj => ?_, .of e (.intoF rfl)⟩
  rw [getLsbD_withSign (by omega), if_neg (by omega)]

/-! ## Minimum and maximum (R222, R223, R252, R253, R284, R285) -/

/-- The cases of a minimum or maximum that are left to the FPU parameter: a NaN, or two zeros of opposite sign. -/
def MinMaxSpecial (fmt : Fmt) (a b : BitVec fmt.bits) : Prop :=
  isNan fmt a = true ∨ isNan fmt b = true ∨ isZero fmt a = true ∧ isZero fmt b = true ∧ a.msb ≠ b.msb

/-- v is the operand of the smaller, or larger, value. -/
def MinMaxPicks (fmt : Fmt) (op : MinMaxOp) (a b v : BitVec fmt.bits) : Prop :=
  (v = a ∨ v = b) ∧
    match op with
    | .min => orderKey fmt v ≤ orderKey fmt a ∧ orderKey fmt v ≤ orderKey fmt b
    | .max => orderKey fmt a ≤ orderKey fmt v ∧ orderKey fmt b ≤ orderKey fmt v

section minmax
variable {fmt : Fmt} {op : MinMaxOp} {a b : BitVec fmt.bits}

theorem minMaxSpecial_iff :
    (isNan fmt a || isNan fmt b || (isZero fmt a && isZero fmt b && signBit a != signBit b)) = true ↔
      MinMaxSpecial fmt a b := by
  simp [MinMaxSpecial, signBit, or_assoc, and_assoc]

theorem exactMinMax_of_special (h : MinMaxSpecial fmt a b) : exactMinMax fmt op a b = none :=
  if_pos (minMaxSpecial_iff.mpr h)

theorem exactMinMax_of_not_special (h : ¬MinMaxSpecial fmt a b) :
    ∃ v, exactMinMax fmt op a b = some v ∧ MinMaxPicks fmt op a b v := by
  unfold exactMinMax
  rw [if_neg (mt minMaxSpecial_iff.mp h)]
  cases op
  case min =>
    by_cases hle : orderKey fmt a ≤ orderKey fmt b
    · exact ⟨a, congrArg some (if_pos hle), .inl rfl, Int.le_refl _, hle⟩
    · exact ⟨b, congrArg some (if_neg hle), .inr rfl, by omega, Int.le_refl _⟩
  case max =>
    by_cases hle : orderKey fmt b ≤ orderKey fmt a
    · exact ⟨a, congrArg some (if_pos hle), .inl rfl, Int.le_refl _, hle⟩
    · exact ⟨b, congrArg some (if_neg hle), .inr rfl, by omega, Int.le_refl _⟩

/-- A minimum or maximum picks an operand outside the special cases, and raises the flags of its call in every case. -/
theorem floatMinMax_rule {i : Instr} {rd rs1 rs2 : Reg} {s : State} (e : exec i s = floatMinMax fmt op rd rs1 rs2 s) :
    let a := s.readF fmt rs1
    let b := s.readF fmt rs2
    let call := FpuCall.minmax fmt op (a.setWidth 64) (b.setWidth 64)
    ∃ v : BitVec fmt.bits, (MinMaxSpecial fmt a b → v = (Config.fpu call).setWidth fmt.bits) ∧
      (¬MinMaxSpecial fmt a b → MinMaxPicks fmt op a b v) ∧
      Completes i s fun t => WritesF s t fmt rd v (Config.fpuFlags call) (s.npc s.bits 4) := by
  intro a b call
  refine ⟨(exactMinMax fmt op a b).getD ((Config.fpu call).setWidth fmt.bits), fun h => ?_, fun h => ?_,
    .of e (.intoFpu rfl)⟩
  · rw [exactMinMax_of_special h, Option.getD_none]
  · obtain ⟨v, hv, picks⟩ := exactMinMax_of_not_special (op := op) h
    rwa [hv, Option.getD_some]

end minmax

/-! ## Comparison (R224 to R226, R254 to R256, R286 to R288) -/

/-- The comparison holds: neither value is a NaN, and their numbers in the order of the real values compare. -/
def CompareHolds (fmt : Fmt) (op : CmpOp) (a b : BitVec fmt.bits) : Prop :=
  isNan fmt a = false ∧ isNan fmt b = false ∧
    match op with
    | .eq => orderKey fmt a = orderKey fmt b
    | .lt => orderKey fmt a < orderKey fmt b
    | .le => orderKey fmt a ≤ orderKey fmt b

theorem compare_iff {fmt : Fmt} {op : CmpOp} {a b : BitVec fmt.bits} :
    compare fmt op a b = true ↔ CompareHolds fmt op a b := by
  cases op <;> simp [compare, CompareHolds, and_assoc]

/-- A comparison writes 1 or 0, with the flags of its call. -/
theorem floatCompare_rule {i : Instr} {fmt : Fmt} {op : CmpOp} {rd rs1 rs2 : Reg} {s : State} (h : s.mayName [rd] = true)
    (e : exec i s = floatCompare fmt op rd rs1 rs2 s) :
    let a := s.readF fmt rs1
    let b := s.readF fmt rs2
    let flags := Config.fpuFlags (.compare fmt op (a.setWidth 64) (b.setWidth 64))
    ∃ v : BitVec s.bits, (CompareHolds fmt op a b → v = 1) ∧ (¬CompareHolds fmt op a b → v = 0) ∧
      Completes i s fun t =>
        WritesX { s with hart := { s.hart with fflags := s.hart.fflags ||| flags } } t rd v false (s.npc s.bits 4) := by
  intro a b flags
  exact ⟨ofBool s.bits (compare fmt op a b), fun hc => if_pos (compare_iff.mpr hc), fun hc => if_neg (mt compare_iff.mp hc),
    .of e (.naming h ⟨_, rfl, accrue_intoX_writesX⟩)⟩

/-! ## The fields of a value -/

section fields

/-- Below the sign bit a value is a fraction field and an exponent field. -/
theorem bits_sub_one (fmt : Fmt) : fmt.bits - 1 = fracBits fmt + expBits fmt := by cases fmt <;> rfl

theorem fracBits_pos (fmt : Fmt) : 0 < fracBits fmt := by cases fmt <;> decide

theorem maxExp_pos (fmt : Fmt) : 0 < maxExp fmt := by cases fmt <;> decide

/-- The bits below the sign are the exponent field and the fraction field. -/
theorem magnitude_eq (fmt : Fmt) (v : BitVec fmt.bits) :
    magnitude fmt v = expField fmt v * 2 ^ fracBits fmt + fracField fmt v := by
  rw [magnitude, expField, fracField, bits_sub_one, Nat.shiftRight_eq_div_pow, Nat.pow_add, Nat.mod_mul,
    Nat.mul_comm, Nat.add_comm]

variable {fmt : Fmt} {v : BitVec fmt.bits}

theorem isNan_iff : isNan fmt v = true ↔ expField fmt v = maxExp fmt ∧ fracField fmt v ≠ 0 := by
  simp [isNan]

theorem isInf_iff : isInf fmt v = true ↔ expField fmt v = maxExp fmt ∧ fracField fmt v = 0 := by
  simp [isInf]

theorem isZero_iff : isZero fmt v = true ↔ expField fmt v = 0 ∧ fracField fmt v = 0 := by
  have hpos : 2 ^ fracBits fmt ≠ 0 := Nat.ne_of_gt (Nat.two_pow_pos _)
  rw [isZero, beq_iff_eq, magnitude_eq, Nat.add_eq_zero_iff, Nat.mul_eq_zero, or_iff_left hpos]

/-- The highest bit of the fraction field, which a quiet NaN has. -/
theorem getLsbD_quiet : v.getLsbD (fracBits fmt - 1) = true ↔ 2 ^ (fracBits fmt - 1) ≤ fracField fmt v := by
  have hlt : fracBits fmt - 1 < fracBits fmt := Nat.sub_lt (fracBits_pos fmt) Nat.one_pos
  have bit : v.getLsbD (fracBits fmt - 1) = (fracField fmt v).testBit (fracBits fmt - 1) := by
    rw [fracField, Nat.testBit_mod_two_pow, decide_eq_true hlt, Bool.true_and, BitVec.testBit_toNat]
  have small : fracField fmt v < 2 ^ (fracBits fmt - 1 + 1) := by
    rw [Nat.sub_add_cancel (fracBits_pos fmt)]
    exact Nat.mod_lt _ (Nat.two_pow_pos _)
  rw [bit]
  exact ⟨Nat.ge_two_pow_of_testBit, fun h => Nat.testBit_of_two_pow_le_and_two_pow_add_one_gt h small⟩

end fields

/-! ## Classification (R206, R227, R257, R289) -/

/-- The classes by their numbers (R206). -/
def classes (fmt : Fmt) (v : BitVec fmt.bits) : List (Nat × Prop) :=
  let e := expField fmt v
  let m := fracField fmt v
  let top := maxExp fmt
  [(0, e = top ∧ m = 0 ∧ v.msb = true), (1, e ≠ top ∧ e ≠ 0 ∧ v.msb = true), (2, e = 0 ∧ m ≠ 0 ∧ v.msb = true),
    (3, e = 0 ∧ m = 0 ∧ v.msb = true), (4, e = 0 ∧ m = 0 ∧ v.msb = false), (5, e = 0 ∧ m ≠ 0 ∧ v.msb = false),
    (6, e ≠ top ∧ e ≠ 0 ∧ v.msb = false), (7, e = top ∧ m = 0 ∧ v.msb = false),
    (8, e = top ∧ m ≠ 0 ∧ m < 2 ^ (fracBits fmt - 1)), (9, e = top ∧ 2 ^ (fracBits fmt - 1) ≤ m)]

theorem fclass_eq (fmt : Fmt) (v : BitVec fmt.bits) : fclass fmt v =
    if expField fmt v = maxExp fmt then
      if fracField fmt v = 0 then if signBit v then 0x001 else 0x080
      else if 2 ^ (fracBits fmt - 1) ≤ fracField fmt v then 0x200 else 0x100
    else if expField fmt v = 0 then
      if fracField fmt v = 0 then if signBit v then 0x008 else 0x010
      else if signBit v then 0x004 else 0x020
    else if signBit v then 0x002 else 0x040 := by
  simp only [fclass, isNan_iff, isInf_iff, isZero_iff, getLsbD_quiet]
  by_cases htop : expField fmt v = maxExp fmt
  · by_cases hm : fracField fmt v = 0 <;> simp [htop, hm]
  · by_cases h0 : expField fmt v = 0 <;> by_cases hm : fracField fmt v = 0 <;> simp [htop, h0, hm]

theorem fclass_of_mem {fmt : Fmt} {v : BitVec fmt.bits} {q : Nat × Prop} (hq : q ∈ classes fmt v) (h : q.2) :
    q.1 < 10 ∧ fclass fmt v = BitVec.ofNat 10 (2 ^ q.1) := by
  have htop : (0 : Nat) ≠ maxExp fmt := Nat.ne_of_lt (maxExp_pos fmt)
  have hquiet : 0 < 2 ^ (fracBits fmt - 1) := Nat.two_pow_pos _
  rw [fclass_eq]
  simp only [classes, List.mem_cons, List.not_mem_nil, or_false] at hq
  rcases hq with rfl | rfl | rfl | rfl | rfl | rfl | rfl | rfl | rfl | rfl
  iterate 9
    · obtain ⟨he, hm, hrest⟩ := h
      simp [he, hm, signBit, hrest, htop]
  · obtain ⟨he, hq⟩ := h
    have hm : fracField fmt v ≠ 0 := by omega
    simp [he, hm, hq]

/-- A classification writes the mask of the class. -/
theorem floatClass_rule {i : Instr} {fmt : Fmt} {rd rs1 : Reg} {s : State} (h : s.mayName [rd] = true)
    (e : exec i s = floatClass fmt rd rs1 s) :
    ∀ q ∈ classes fmt (s.readF fmt rs1), q.2 → Completes i s fun t =>
      WritesX s t rd (BitVec.ofNat s.bits (2 ^ q.1)) false (s.npc s.bits 4) := by
  intro q hq hc
  obtain ⟨hlt, hclass⟩ := fclass_of_mem hq hc
  have hpow : 2 ^ q.1 < 2 ^ 10 := Nat.pow_lt_pow_right (by decide) hlt
  refine .of e (.naming h (.intoX ?_))
  rw [hclass, BitVec.setWidth_ofNat_of_le_of_lt (by have := s.le_bits; omega) hpow]

/-! ## The rounding mode (R205) -/

/-- The eight values of a rounding-mode field: five modes and three reserved. -/
theorem roundingMode_eq (number : BitVec 3) :
    some (roundingMode number) =
      [some Rm.rne, some .rtz, some .rdn, some .rup, some .rmm, none, none, none][number.toNat]? := by
  revert number; decide

theorem State.rmEff_dynamic (s : State) : s.rmEff 7 = roundingMode s.hart.frm := rfl

theorem State.rmEff_of_ne {rm : BitVec 3} (h : rm ≠ 7) (s : State) : s.rmEff rm = roundingMode rm :=
  congrArg roundingMode (if_neg h)

/-- The mode of frm, given as a field. -/
theorem State.rmEff_frm (s : State) : s.rmEff s.hart.frm = roundingMode s.hart.frm :=
  congrArg roundingMode (ite_self _)

end Sys2Proof.Machine

/-! ## The statements: an instruction is of the shape that its format and its operation give -/

namespace Sys2Proof

open Machine

/-- Settles O27: the six are loads into a view and stores of one, whose width is that of the bytes moved. -/
theorem floatMemory : Obligations.FloatMemory := by
  intro s r rs1 imm h a
  have address : s.addrI s.bits rs1 imm = a := addrI_eq ..
  have whole {m : Nat} (v : BitVec m) : v.setWidth m = v := v.setWidth_eq
  have fits {k : Nat} (hk : k ≤ 8) : k ≤ 2 ^ s.bits := s.bytes_le_space k (by omega)
  rw [← address]
  exact ⟨loadsFrom_of_intoF .h whole ((exec_flh ..).trans (naming_of_mayName h)),
    loadsFrom_of_intoF .s whole ((exec_flw ..).trans (naming_of_mayName h)),
    loadsFrom_of_intoF .d whole ((exec_fld ..).trans (naming_of_mayName h)),
    storesTo_of_storing (fits (by decide)) (whole _) ((exec_fsh ..).trans (naming_of_mayName h)),
    storesTo_of_storing (fits (by decide)) (whole _) ((exec_fsw ..).trans (naming_of_mayName h)),
    storesTo_of_storing (fits (by decide)) (whole _) ((exec_fsd ..).trans (naming_of_mayName h))⟩

/-- Settles O28: the twenty-seven are rounded results whose value is that of the FPU parameter. -/
theorem floatRounded : Obligations.FloatRounded := by
  intro s rd rs1 rs2 rs3 rm f rule
  refine ⟨fun p hp => ?_, fun p hp => ?_, fun p hp => ?_⟩ <;> simp only [List.mem_cons, List.not_mem_nil, or_false] at hp
  · rcases hp with rfl | rfl | rfl | rfl | rfl | rfl | rfl | rfl | rfl | rfl | rfl | rfl
    · exact rounded_rule (exec_faddH ..)
    · exact rounded_rule (exec_fsubH ..)
    · exact rounded_rule (exec_fmulH ..)
    · exact rounded_rule (exec_fdivH ..)
    · exact rounded_rule (exec_faddS ..)
    · exact rounded_rule (exec_fsubS ..)
    · exact rounded_rule (exec_fmulS ..)
    · exact rounded_rule (exec_fdivS ..)
    · exact rounded_rule (exec_faddD ..)
    · exact rounded_rule (exec_fsubD ..)
    · exact rounded_rule (exec_fmulD ..)
    · exact rounded_rule (exec_fdivD ..)
  · rcases hp with rfl | rfl | rfl | rfl | rfl | rfl | rfl | rfl | rfl | rfl | rfl | rfl
    · exact rounded_rule (exec_fmaddH ..)
    · exact rounded_rule (exec_fmsubH ..)
    · exact rounded_rule (exec_fnmsubH ..)
    · exact rounded_rule (exec_fnmaddH ..)
    · exact rounded_rule (exec_fmaddS ..)
    · exact rounded_rule (exec_fmsubS ..)
    · exact rounded_rule (exec_fnmsubS ..)
    · exact rounded_rule (exec_fnmaddS ..)
    · exact rounded_rule (exec_fmaddD ..)
    · exact rounded_rule (exec_fmsubD ..)
    · exact rounded_rule (exec_fnmsubD ..)
    · exact rounded_rule (exec_fnmaddD ..)
  · rcases hp with rfl | rfl | rfl
    · exact rounded_rule (exec_fsqrtH ..)
    · exact rounded_rule (exec_fsqrtS ..)
    · exact rounded_rule (exec_fsqrtD ..)

/-- Settles O29: the nine are sign injections that differ in the sign they give. -/
theorem floatSigns : Obligations.FloatSigns := by
  intro s rd rs1 rs2 p hp
  simp only [List.mem_cons, List.not_mem_nil, or_false] at hp
  rcases hp with rfl | rfl | rfl | rfl | rfl | rfl | rfl | rfl | rfl
  · exact floatSign_rule (exec_fsgnjH ..)
  · exact floatSign_rule (exec_fsgnjnH ..)
  · exact floatSign_rule (exec_fsgnjxH ..)
  · exact floatSign_rule (exec_fsgnjS ..)
  · exact floatSign_rule (exec_fsgnjnS ..)
  · exact floatSign_rule (exec_fsgnjxS ..)
  · exact floatSign_rule (exec_fsgnjD ..)
  · exact floatSign_rule (exec_fsgnjnD ..)
  · exact floatSign_rule (exec_fsgnjxD ..)

/-- Settles O30: the six are minima and maxima, which pick an operand outside the special cases. -/
theorem floatMinMax : Obligations.FloatMinMax := by
  intro s rd rs1 rs2 p hp
  simp only [List.mem_cons, List.not_mem_nil, or_false] at hp
  rcases hp with rfl | rfl | rfl | rfl | rfl | rfl
  · exact floatMinMax_rule (exec_fminH ..)
  · exact floatMinMax_rule (exec_fmaxH ..)
  · exact floatMinMax_rule (exec_fminS ..)
  · exact floatMinMax_rule (exec_fmaxS ..)
  · exact floatMinMax_rule (exec_fminD ..)
  · exact floatMinMax_rule (exec_fmaxD ..)

/-- Settles O31: the nine are comparisons; the sign and the magnitude are the value in the order of the real values. -/
theorem floatCompare : Obligations.FloatCompare := by
  intro s rd rs1 rs2 h p hp
  simp only [List.mem_cons, List.not_mem_nil, or_false] at hp
  rcases hp with rfl | rfl | rfl | rfl | rfl | rfl | rfl | rfl | rfl
  · exact floatCompare_rule h (exec_feqH ..)
  · exact floatCompare_rule h (exec_fltH ..)
  · exact floatCompare_rule h (exec_fleH ..)
  · exact floatCompare_rule h (exec_feqS ..)
  · exact floatCompare_rule h (exec_fltS ..)
  · exact floatCompare_rule h (exec_fleS ..)
  · exact floatCompare_rule h (exec_feqD ..)
  · exact floatCompare_rule h (exec_fltD ..)
  · exact floatCompare_rule h (exec_fleD ..)

/-- Settles O32: the three are classifications, and each class has its own bit. -/
theorem floatClass : Obligations.FloatClass := by
  intro s rd rs1 h p hp
  simp only [List.mem_cons, List.not_mem_nil, or_false] at hp
  rcases hp with rfl | rfl | rfl
  · exact floatClass_rule h (exec_fclassH ..)
  · exact floatClass_rule h (exec_fclassS ..)
  · exact floatClass_rule h (exec_fclassD ..)

/-- Settles O33: the twelve are conversions to an integer, those of 64 bits after the check of the XLEN. -/
theorem floatToInteger : Obligations.FloatToInteger := by
  intro s rd rs1 rm h p hp
  simp only [List.mem_cons, List.not_mem_nil, or_false] at hp
  rcases hp with rfl | rfl | rfl | rfl | rfl | rfl | rfl | rfl | rfl | rfl | rfl | rfl <;> intro fmt kind a call hk
  · exact floatToInt_rule h (exec_fcvtWH ..)
  · exact floatToInt_rule h (exec_fcvtWuH ..)
  · exact floatToInt_rule h ((exec_fcvtLH ..).trans (onlyOn_of_eq (hk rfl)))
  · exact floatToInt_rule h ((exec_fcvtLuH ..).trans (onlyOn_of_eq (hk rfl)))
  · exact floatToInt_rule h (exec_fcvtWS ..)
  · exact floatToInt_rule h (exec_fcvtWuS ..)
  · exact floatToInt_rule h ((exec_fcvtLS ..).trans (onlyOn_of_eq (hk rfl)))
  · exact floatToInt_rule h ((exec_fcvtLuS ..).trans (onlyOn_of_eq (hk rfl)))
  · exact floatToInt_rule h (exec_fcvtWD ..)
  · exact floatToInt_rule h (exec_fcvtWuD ..)
  · exact floatToInt_rule h ((exec_fcvtLD ..).trans (onlyOn_of_eq (hk rfl)))
  · exact floatToInt_rule h ((exec_fcvtLuD ..).trans (onlyOn_of_eq (hk rfl)))

/-- Settles O34: the twelve are conversions from an integer, those of 64 bits after the check of the XLEN. -/
theorem floatFromInteger : Obligations.FloatFromInteger := by
  intro s rd rs1 rm h p hp
  simp only [List.mem_cons, List.not_mem_nil, or_false] at hp
  rcases hp with rfl | rfl | rfl | rfl | rfl | rfl | rfl | rfl | rfl | rfl | rfl | rfl <;> intro fmt kind a call hk
  · exact floatFromInt_rule h hk (exec_fcvtHW ..)
  · exact floatFromInt_rule h hk (exec_fcvtHWu ..)
  · exact floatFromInt_rule h hk ((exec_fcvtHL ..).trans (onlyOn_of_eq (hk rfl)))
  · exact floatFromInt_rule h hk ((exec_fcvtHLu ..).trans (onlyOn_of_eq (hk rfl)))
  · exact floatFromInt_rule h hk (exec_fcvtSW ..)
  · exact floatFromInt_rule h hk (exec_fcvtSWu ..)
  · exact floatFromInt_rule h hk ((exec_fcvtSL ..).trans (onlyOn_of_eq (hk rfl)))
  · exact floatFromInt_rule h hk ((exec_fcvtSLu ..).trans (onlyOn_of_eq (hk rfl)))
  · exact floatFromInt_rule h hk (exec_fcvtDW ..)
  · exact floatFromInt_rule h hk (exec_fcvtDWu ..)
  · exact floatFromInt_rule h hk ((exec_fcvtDL ..).trans (onlyOn_of_eq (hk rfl)))
  · exact floatFromInt_rule h hk ((exec_fcvtDLu ..).trans (onlyOn_of_eq (hk rfl)))

/-- Settles O35: the six are rounded results, exact where the conversion is. -/
theorem floatFormats : Obligations.FloatFormats := by
  intro s rd rs1 rm p hp
  simp only [List.mem_cons, List.not_mem_nil, or_false] at hp
  rcases hp with rfl | rfl | rfl | rfl | rfl | rfl
  · exact rounded_rule (exec_fcvtSD ..)
  · exact rounded_rule (exec_fcvtDS ..)
  · exact rounded_rule (exec_fcvtSH ..)
  · exact rounded_rule (exec_fcvtHS ..)
  · exact rounded_rule (exec_fcvtDH ..)
  · exact rounded_rule (exec_fcvtHD ..)

/-- Settles O36: the moves write one register with a view or the low bits of the other; fcvt.bf16.s is a rounded result under
the mode of frm. -/
theorem floatMovesAndBf16 : Obligations.FloatMovesAndBf16 := by
  intro s rd rs1
  refine ⟨fun h => ⟨?_, ?_, fun hx => ?_⟩, fun h => ⟨?_, ?_, fun hx => ?_⟩, .of (exec_fcvtSBf16 ..) (.intoF rfl), ?_⟩
  · exact .of (exec_fmvXH ..) (.naming h (.intoX rfl))
  · exact .of (exec_fmvXW ..) (.naming h (.intoX rfl))
  · exact .of (exec_fmvXD ..) (.onlyOn hx (.naming h (.intoX rfl)))
  · exact .of (exec_fmvHX ..) (.naming h (.intoF (s.readX_low (by decide) rs1)))
  · exact .of (exec_fmvWX ..) (.naming h (.intoF (s.readX_word rs1)))
  · exact .of (exec_fmvDX ..) (.onlyOn hx (.naming h (.intoF (State.readX_doubleWord hx rs1))))
  · rw [← s.rmEff_frm]
    exact rounded_rule (exec_fcvtBf16S ..)

/-- Settles O37: the table of the modes, and the fifty-seven with a rounding-mode field, which take their mode after the checks
of the registers and of the XLEN that some of them have. -/
theorem roundingModes : Obligations.RoundingModes := by
  intro s rd rs1 rs2 rs3 rm modes
  refine ⟨fun h => ?_, fun h => ?_, fun hrm i hi hx hn => ?_⟩
  · rw [State.rmEff_of_ne h]
    exact roundingMode_eq rm
  · rw [h, State.rmEff_dynamic]
    exact roundingMode_eq s.hart.frm
  · have refused {go : Rm → State} : rounding rm s go = .refused .reservedRoundingMode := rounding_none hrm
    simp only [List.mem_cons, List.not_mem_nil, or_false] at hi
    rcases hi with rfl | rfl | rfl | rfl | rfl | rfl | rfl | rfl | rfl | rfl | rfl | rfl | rfl | rfl | rfl | rfl | rfl | rfl
      | rfl | rfl | rfl | rfl | rfl | rfl | rfl | rfl | rfl | rfl | rfl | rfl | rfl | rfl | rfl | rfl | rfl | rfl | rfl | rfl
      | rfl | rfl | rfl | rfl | rfl | rfl | rfl | rfl | rfl | rfl | rfl | rfl | rfl | rfl | rfl | rfl | rfl | rfl | rfl
    iterate 6 exact refused
    iterate 3
      iterate 9 exact refused
      iterate 4 exact (naming_of_mayName hn).trans refused
      iterate 4 exact (onlyOn_of_eq (beq_iff_eq.mp hx).symm).trans ((naming_of_mayName hn).trans refused)

end Sys2Proof
end

section
/-! The statement of spec/45_float.md about exact conversions: a bit pattern stands for a number, and a conversion is exact
where the destination holds the number. Magnitudes are counted in units of the last place of a subnormal double, of which the
magnitudes of every format and of every integer are multiples. -/

namespace Sys2Proof.Machine

/-! ## The unit of a place -/

/-- The least place of the three formats. -/
def leastPlace : Int := minPlace .d

theorem leastPlace_le_minPlace (fmt : Fmt) : leastPlace ≤ minPlace fmt := by cases fmt <;> decide

theorem leastPlace_le_zero : leastPlace ≤ 0 := by decide

/-- The power of two of a place, in units of the least one. -/
def unit (p : Int) : Nat := 2 ^ (p - leastPlace).toNat

theorem unit_pos (p : Int) : 0 < unit p := Nat.two_pow_pos _

theorem unit_mono {p q : Int} (h : p ≤ q) : unit p ≤ unit q := Nat.pow_le_pow_right Nat.two_pos (by omega)

theorem lt_of_unit_lt {p q : Int} (h : unit p < unit q) : p < q :=
  Int.not_le.mp fun hle => Nat.not_le.mpr h (unit_mono hle)

theorem unit_add {p : Int} (hp : leastPlace ≤ p) (k : Nat) : unit (p + k) = 2 ^ k * unit p := by
  have hsum : (p + k - leastPlace).toNat = k + (p - leastPlace).toNat := by omega
  rw [unit, hsum, Nat.pow_add, unit]

/-- A bound of the mantissa is one of the number. -/
theorem mul_unit_lt_iff {p : Int} (hp : leastPlace ≤ p) (m k : Nat) : m * unit p < unit (p + k) ↔ m < 2 ^ k := by
  rw [unit_add hp, Nat.mul_lt_mul_right (unit_pos p)]

/-- Shifting to another place, up or down without a remainder, keeps the number. -/
theorem shifted_eq_iff {p q : Int} (hp : leastPlace ≤ p) (hq : leastPlace ≤ q) (m n : Nat) :
    (m % 2 ^ (q - p).toNat = 0 ∧ m * 2 ^ (p - q).toNat / 2 ^ (q - p).toNat = n) ↔ m * unit p = n * unit q := by
  by_cases hle : q ≤ p
  · obtain ⟨k, rfl⟩ := Int.le.dest hle
    have hup : (q + k - q).toNat = k := by omega
    have hdown : (q - (q + k)).toNat = 0 := by omega
    rw [hup, hdown, Nat.pow_zero, Nat.mod_one, Nat.div_one, unit_add hq, ← Nat.mul_assoc,
      Nat.mul_right_cancel_iff (unit_pos q)]
    exact and_iff_right rfl
  · obtain ⟨k, rfl⟩ := Int.le.dest (Int.le_of_lt (Int.not_le.mp hle))
    have hup : (p - (p + k)).toNat = 0 := by omega
    have hdown : (p + k - p).toNat = k := by omega
    rw [hup, hdown, Nat.pow_zero, Nat.mul_one, unit_add hp, ← Nat.mul_assoc, Nat.mul_right_cancel_iff (unit_pos p)]
    constructor
    · rintro ⟨hmod, rfl⟩
      exact (Nat.div_mul_cancel (Nat.dvd_of_mod_eq_zero hmod)).symm
    · rintro rfl
      exact ⟨Nat.mul_mod_left _ _, Nat.mul_div_cancel _ (Nat.two_pow_pos k)⟩

/-! ## The number of a finite value -/

/-- The number without its sign. -/
def Finite.size (x : Finite) : Nat := x.mantissa * unit x.place

/-- The mantissa and the place are in the range of the numbers that a conversion meets. -/
structure Finite.InRange (x : Finite) : Prop where
  mantissa : x.mantissa < 2 ^ 64
  place : leastPlace ≤ x.place

theorem Finite.size_of_mantissa_zero {x : Finite} (h : x.mantissa = 0) : x.size = 0 := by
  rw [Finite.size, h, Nat.zero_mul]

theorem Finite.size_eq_zero_iff {x : Finite} : x.size = 0 ↔ x.mantissa = 0 := by
  rw [Finite.size, Nat.mul_eq_zero, or_iff_left (Nat.ne_of_gt (unit_pos _))]

/-- The mantissa at a place that is not above the value's own. -/
theorem Finite.size_eq_scaled (x : Finite) {p : Int} (hp : leastPlace ≤ p) (h : p ≤ x.place) :
    x.size = x.mantissa * 2 ^ (x.place - p).toNat * unit p := by
  have hplace : x.place = p + (x.place - p).toNat := by omega
  rw [Finite.size, Nat.mul_assoc, ← unit_add hp, ← hplace]

/-- Two values compare alike at every place below both. -/
theorem scaled_eq_iff {x y : Finite} {p q : Int} (hpq : p ≤ q) (hx : q ≤ x.place) (hy : q ≤ y.place) :
    x.mantissa * 2 ^ (x.place - p).toNat = y.mantissa * 2 ^ (y.place - p).toNat ↔
      x.mantissa * 2 ^ (x.place - q).toNat = y.mantissa * 2 ^ (y.place - q).toNat := by
  have scale (z : Finite) (hz : q ≤ z.place) :
      z.mantissa * 2 ^ (z.place - p).toNat = z.mantissa * 2 ^ (z.place - q).toNat * 2 ^ (q - p).toNat := by
    have hsum : (z.place - p).toNat = (z.place - q).toNat + (q - p).toNat := by omega
    rw [hsum, Nat.pow_add, Nat.mul_assoc]
  rw [scale x hx, scale y hy, Nat.mul_right_cancel_iff (Nat.two_pow_pos _)]

theorem Finite.sameNumber_iff {x y : Finite} (hx : leastPlace ≤ x.place) (hy : leastPlace ≤ y.place) : x.SameNumber y ↔
    (x.negative = y.negative ∨ x.mantissa = 0 ∧ y.mantissa = 0) ∧ x.size = y.size := by
  refine and_congr_right fun _ => ⟨fun ⟨p, hpx, hpy, h⟩ => ?_, fun h => ⟨leastPlace, hx, hy, h⟩⟩
  rcases Int.le_total p leastPlace with hp | hp
  · exact (scaled_eq_iff hp hx hy).mp h
  · exact (scaled_eq_iff hp hpx hpy).mpr h

/-! ## The highest bit of the mantissa -/

theorem topBit_eq_log2 {m k : Nat} (h : m < 2 ^ (k + 1)) : topBit m k = m.log2 := by
  induction k with
  | zero =>
    have hm : m = 0 ∨ m = 1 := by omega
    rcases hm with rfl | rfl <;> decide
  | succ k ih =>
    unfold topBit
    split
    · next hbit =>
      have hge : 2 ^ (k + 1) ≤ m := Nat.ge_two_pow_of_testBit hbit
      have hm : m ≠ 0 := Nat.ne_of_gt (Nat.lt_of_lt_of_le (Nat.two_pow_pos _) hge)
      exact ((Nat.log2_eq_iff hm).mpr ⟨hge, h⟩).symm
    · next hbit =>
      refine ih (Nat.lt_of_not_le fun hge => hbit ?_)
      exact Nat.testBit_of_two_pow_le_and_two_pow_add_one_gt hge h

/-- The place of the highest bit of a value. -/
def Finite.top (x : Finite) : Int := x.place + topBit x.mantissa 63

theorem Finite.top_bounds {x : Finite} (hm : x.mantissa ≠ 0) (hx : x.InRange) :
    unit x.top ≤ x.size ∧ x.size < unit (x.top + 1) := by
  have hlow : 2 ^ x.mantissa.log2 ≤ x.mantissa := Nat.log2_self_le hm
  have hhigh : x.mantissa < 2 ^ (x.mantissa.log2 + 1) := Nat.lt_log2_self
  have hsucc : x.place + (x.mantissa.log2 : Int) + 1 = x.place + (x.mantissa.log2 + 1 : Nat) := by omega
  rw [Finite.top, topBit_eq_log2 hx.mantissa, hsucc, unit_add hx.place]
  exact ⟨Nat.mul_le_mul_right _ hlow, (mul_unit_lt_iff hx.place ..).mpr hhigh⟩

/-! ## Bit patterns by their fields -/

/-- The bit pattern of a sign, an exponent field and a fraction field; a fraction past its field carries into the exponent. -/
def pattern (fmt : Fmt) (negative : Bool) (e f : Nat) : BitVec fmt.bits :=
  BitVec.ofNat fmt.bits ((if negative then 2 ^ (fmt.bits - 1) else 0) + e * 2 ^ fracBits fmt + f)

theorem pattern_carry (fmt : Fmt) (negative : Bool) (e f : Nat) :
    pattern fmt negative e (2 ^ fracBits fmt + f) = pattern fmt negative (e + 1) f := by
  rw [pattern, pattern, Nat.succ_mul, Nat.add_assoc, Nat.add_assoc, Nat.add_assoc]

theorem maxExp_add_one (fmt : Fmt) : maxExp fmt + 1 = 2 ^ expBits fmt := Nat.sub_add_cancel (Nat.two_pow_pos _)

theorem fracField_lt (fmt : Fmt) (v : BitVec fmt.bits) : fracField fmt v < 2 ^ fracBits fmt :=
  Nat.mod_lt _ (Nat.two_pow_pos _)

theorem expField_le (fmt : Fmt) (v : BitVec fmt.bits) : expField fmt v ≤ maxExp fmt := by
  have hlt : expField fmt v < 2 ^ expBits fmt := Nat.mod_lt _ (Nat.two_pow_pos _)
  have := maxExp_add_one fmt
  omega

section pattern
variable {fmt : Fmt} {negative : Bool} {e f : Nat}

theorem toNat_pattern (he : e ≤ maxExp fmt) (hf : f < 2 ^ fracBits fmt) :
    e * 2 ^ fracBits fmt + f < 2 ^ (fmt.bits - 1) ∧ (pattern fmt negative e f).toNat =
      (if negative then 2 ^ (fmt.bits - 1) else 0) + (e * 2 ^ fracBits fmt + f) := by
  have hmag : e * 2 ^ fracBits fmt + f < 2 ^ (fmt.bits - 1) := by
    rw [bits_sub_one, Nat.pow_add, ← maxExp_add_one]
    have hle := Nat.mul_le_mul_right (2 ^ fracBits fmt) he
    rw [Nat.mul_succ, Nat.mul_comm _ (maxExp fmt)]
    omega
  have hbits : 2 ^ fmt.bits = 2 * 2 ^ (fmt.bits - 1) := by cases fmt <;> rfl
  refine ⟨hmag, ?_⟩
  rw [pattern, BitVec.toNat_ofNat, Nat.add_assoc]
  refine Nat.mod_eq_of_lt ?_
  split <;> omega

theorem signBit_pattern (he : e ≤ maxExp fmt) (hf : f < 2 ^ fracBits fmt) :
    signBit (pattern fmt negative e f) = negative := by
  obtain ⟨hmag, hnat⟩ := toNat_pattern (negative := negative) he hf
  rw [signBit, BitVec.msb_eq_decide, hnat]
  cases negative
  · exact decide_eq_false (by simpa using hmag)
  · exact decide_eq_true (Nat.le_add_right _ _)

theorem magnitude_pattern (he : e ≤ maxExp fmt) (hf : f < 2 ^ fracBits fmt) :
    magnitude fmt (pattern fmt negative e f) = e * 2 ^ fracBits fmt + f := by
  obtain ⟨hmag, hnat⟩ := toNat_pattern (negative := negative) he hf
  rw [magnitude, hnat]
  cases negative
  · rw [if_neg Bool.false_ne_true, Nat.zero_add, Nat.mod_eq_of_lt hmag]
  · rw [if_pos rfl, Nat.add_mod_left, Nat.mod_eq_of_lt hmag]

theorem fields_pattern (he : e ≤ maxExp fmt) (hf : f < 2 ^ fracBits fmt) :
    expField fmt (pattern fmt negative e f) = e ∧ fracField fmt (pattern fmt negative e f) = f := by
  have h := magnitude_pattern (negative := negative) he hf
  have hfield := fracField_lt fmt (pattern fmt negative e f)
  rw [magnitude_eq] at h
  generalize expField fmt (pattern fmt negative e f) = e', fracField fmt (pattern fmt negative e f) = f' at h hfield
  have hpos : 0 < 2 ^ fracBits fmt := Nat.two_pow_pos _
  have hdiv := congrArg (· / 2 ^ fracBits fmt) h
  have hmod := congrArg (· % 2 ^ fracBits fmt) h
  simp only [Nat.mul_comm _ (2 ^ fracBits fmt), Nat.mul_add_div hpos, Nat.mul_add_mod, Nat.div_eq_of_lt, Nat.mod_eq_of_lt,
    hf, hfield, Nat.add_zero] at hdiv hmod
  exact ⟨hdiv, hmod⟩

theorem unpack_pattern_subnormal (hf : f < 2 ^ fracBits fmt) :
    unpack fmt (pattern fmt negative 0 f) = some ⟨negative, f, minPlace fmt⟩ := by
  have he : 0 ≤ maxExp fmt := Nat.zero_le _
  obtain ⟨hexp, hfrac⟩ := fields_pattern (negative := negative) he hf
  rw [unpack, hexp, hfrac, if_neg (Nat.ne_of_lt (maxExp_pos fmt)), if_pos rfl, signBit_pattern he hf]

theorem unpack_pattern_normal (he : e + 1 < maxExp fmt) (hf : f < 2 ^ fracBits fmt) :
    unpack fmt (pattern fmt negative (e + 1) f) = some ⟨negative, f + 2 ^ fracBits fmt, minPlace fmt + e⟩ := by
  obtain ⟨hexp, hfrac⟩ := fields_pattern (negative := negative) (Nat.le_of_lt he) hf
  rw [unpack, hexp, hfrac, if_neg (Nat.ne_of_lt he), if_neg e.succ_ne_zero, signBit_pattern (Nat.le_of_lt he) hf, Int.natCast_add, Int.natCast_one,
    Int.add_sub_cancel]

/-- The pattern of an infinity. -/
theorem isInf_pattern : isInf fmt (pattern fmt negative (maxExp fmt) 0) = true :=
  isInf_iff.mpr (fields_pattern (Nat.le_refl _) (Nat.two_pow_pos _))

end pattern

/-! ## The values of a format -/

/-- The mantissa and the place are ones that the format has. -/
structure Fits (fmt : Fmt) (x : Finite) : Prop where
  mantissa : x.mantissa < 2 ^ (fracBits fmt + 1)
  least : minPlace fmt ≤ x.place
  greatest : x.place + 2 ≤ minPlace fmt + maxExp fmt

theorem two_le_maxExp (fmt : Fmt) : 2 ≤ maxExp fmt := by cases fmt <;> decide

theorem fits_of_unpack {fmt : Fmt} {v : BitVec fmt.bits} {x : Finite} (h : unpack fmt v = some x) : Fits fmt x := by
  have hfrac := fracField_lt fmt v
  have hexp := expField_le fmt v
  have htop := two_le_maxExp fmt
  have hpow : 2 ^ (fracBits fmt + 1) = 2 ^ fracBits fmt + 2 ^ fracBits fmt := by rw [Nat.pow_succ, Nat.mul_two]
  unfold unpack at h
  split at h
  · cases h
  · split at h <;> cases h
    · exact ⟨by simp only; omega, Int.le_refl _, by simp only; omega⟩
    · exact ⟨by simp only; omega, by simp only; omega, by simp only; omega⟩

theorem Fits.inRange {fmt : Fmt} {x : Finite} (h : Fits fmt x) : x.InRange where
  mantissa := Nat.lt_of_lt_of_le h.mantissa (Nat.pow_le_pow_right Nat.two_pos (by cases fmt <;> decide))
  place := Int.le_trans (leastPlace_le_minPlace fmt) h.least

/-- A wider format has the mantissas and the places of a narrower one. -/
theorem Fits.widen {src dst : Fmt} {x : Finite} (h : Fits src x) (hw : src.bits < dst.bits) : Fits dst x := by
  obtain ⟨hfrac, hleast, hgreatest⟩ : fracBits src ≤ fracBits dst ∧ minPlace dst ≤ minPlace src ∧
      minPlace src + maxExp src ≤ minPlace dst + maxExp dst := by
    revert hw
    cases src <;> cases dst <;> decide
  exact ⟨Nat.lt_of_lt_of_le h.mantissa (Nat.pow_le_pow_right Nat.two_pos (by omega)), Int.le_trans hleast h.least,
    Int.le_trans h.greatest hgreatest⟩

/-! ## Packing a value into a format -/

/-- The last place that a packed value takes. -/
def packPlace (fmt : Fmt) (x : Finite) : Int := max (x.top - fracBits fmt) (minPlace fmt)

theorem pack_of_mantissa_zero {fmt : Fmt} {x : Finite} (h : x.mantissa = 0) :
    pack fmt x = some (pattern fmt x.negative 0 0) := by
  rw [pack, if_pos h, pattern, Nat.zero_mul, Nat.add_zero]

theorem minPlace_le_packPlace (fmt : Fmt) (x : Finite) : minPlace fmt ≤ packPlace fmt x := Int.le_max_right ..

theorem leastPlace_le_packPlace (fmt : Fmt) (x : Finite) : leastPlace ≤ packPlace fmt x :=
  Int.le_trans (leastPlace_le_minPlace fmt) (minPlace_le_packPlace fmt x)

theorem pack_eq_some_iff {fmt : Fmt} {x : Finite} {b : BitVec fmt.bits} (hm : x.mantissa ≠ 0) (hx : leastPlace ≤ x.place) :
    pack fmt x = some b ↔ ∃ m : Nat, x.size = m * unit (packPlace fmt x) ∧
      (packPlace fmt x - minPlace fmt).toNat + 1 < maxExp fmt ∧
      pattern fmt x.negative (packPlace fmt x - minPlace fmt).toNat m = b := by
  simp only [Finite.size, ← shifted_eq_iff hx (leastPlace_le_packPlace fmt x), and_assoc, exists_and_left, exists_eq_left']
  simp only [pack, packPlace, Finite.top, if_neg hm]
  split
  · next hmod => exact ⟨nofun, fun h => absurd h.1 hmod⟩
  · next hmod =>
    rw [ne_eq, Classical.not_not] at hmod
    rw [and_iff_right hmod]
    split
    · next hexp => exact ⟨nofun, fun h => absurd h.1 (Nat.not_lt.mpr hexp)⟩
    · next hexp => rw [and_iff_right (Nat.lt_of_not_le hexp), Option.some.injEq, pattern]

/-- A packed value is the number it was packed from, with its sign. -/
theorem unpack_of_pack {fmt : Fmt} {x : Finite} {b : BitVec fmt.bits} (hx : x.InRange) (h : pack fmt x = some b) :
    ∃ y, unpack fmt b = some y ∧ x.negative = y.negative ∧ x.size = y.size := by
  have hfrac : 0 < 2 ^ fracBits fmt := Nat.two_pow_pos _
  by_cases hm : x.mantissa = 0
  · rw [pack_of_mantissa_zero hm, Option.some.injEq] at h
    subst h
    refine ⟨_, unpack_pattern_subnormal hfrac, rfl, ?_⟩
    rw [Finite.size_of_mantissa_zero hm, Finite.size_of_mantissa_zero rfl]
  · obtain ⟨m, hsize, hexp, rfl⟩ := (pack_eq_some_iff hm hx.place).mp h
    obtain ⟨hlow, hhigh⟩ := Finite.top_bounds hm hx
    rw [hsize] at hlow hhigh ⊢
    have bound := mul_unit_lt_iff (leastPlace_le_packPlace fmt x) m
    have hleast := minPlace_le_packPlace fmt x
    have hplace : packPlace fmt x = minPlace fmt + (packPlace fmt x - minPlace fmt).toNat := by omega
    by_cases hlt : m < 2 ^ fracBits fmt
    · have hzero : (packPlace fmt x - minPlace fmt).toNat = 0 := by
        have htop : x.top < packPlace fmt x + fracBits fmt := lt_of_unit_lt (Nat.lt_of_le_of_lt hlow ((bound _).mpr hlt))
        unfold packPlace at *
        omega
      rw [hzero] at hplace ⊢
      refine ⟨_, unpack_pattern_subnormal hlt, rfl, ?_⟩
      rw [Finite.size, hplace, Int.natCast_zero, Int.add_zero]
    · have hfits : m < 2 ^ (fracBits fmt + 1) := by
        have htop : x.top - fracBits fmt ≤ packPlace fmt x := Int.le_max_left ..
        exact (bound _).mp (Nat.lt_of_lt_of_le hhigh (unit_mono (by omega)))
      obtain ⟨f, rfl⟩ := Nat.exists_eq_add_of_le (Nat.le_of_not_lt hlt)
      have hf : f < 2 ^ fracBits fmt := by omega
      rw [pattern_carry]
      refine ⟨_, unpack_pattern_normal hexp hf, rfl, ?_⟩
      rw [Finite.size, Nat.add_comm f, ← hplace]

/-- A value is packed wherever the format has its number. -/
theorem pack_isSome {fmt : Fmt} {x z : Finite} (hx : x.InRange) (hz : Fits fmt z) (h : x.size = z.size) :
    (pack fmt x).isSome = true := by
  by_cases hm : x.mantissa = 0
  · rw [pack_of_mantissa_zero hm, Option.isSome_some]
  · have htop : x.top < z.place + (fracBits fmt + 1 : Nat) := by
      obtain ⟨hlow, -⟩ := Finite.top_bounds hm hx
      rw [h] at hlow
      exact lt_of_unit_lt (Nat.lt_of_le_of_lt hlow ((mul_unit_lt_iff hz.inRange.place ..).mpr hz.mantissa))
    have hplace : packPlace fmt x ≤ z.place := Int.max_le.mpr ⟨by omega, hz.least⟩
    have hgreatest := hz.greatest
    have htwo := two_le_maxExp fmt
    rw [z.size_eq_scaled (leastPlace_le_packPlace fmt x) hplace] at h
    exact Option.isSome_of_eq_some ((pack_eq_some_iff hm hx.place).mpr ⟨_, h, by omega, rfl⟩)

/-! ## Between formats (R268, R269, R300 to R303) -/

section convert
variable {src dst : Fmt} {a : BitVec src.bits} {x : Finite}

theorem unpack_eq_none_iff {fmt : Fmt} {v : BitVec fmt.bits} : unpack fmt v = none ↔ expField fmt v = maxExp fmt := by
  unfold unpack
  split
  · next h => exact iff_of_true rfl h
  · next h =>
    split
    · exact iff_of_false nofun h
    · exact iff_of_false nofun h

theorem exactConvert_of_unpack (h : unpack src a = some x) : exactConvert src dst a = pack dst x := by
  have hinf : ¬isInf src a = true := by
    rw [isInf_iff]
    rintro ⟨hexp, -⟩
    rw [unpack_eq_none_iff.mpr hexp] at h
    cases h
  rw [exactConvert, if_neg hinf, h, Option.bind_some]

theorem exactConvert_of_isInf (h : isInf src a = true) (hw : src.bits < dst.bits) :
    exactConvert src dst a = some (pattern dst a.msb (maxExp dst) 0) := by
  rw [exactConvert, if_pos h, if_pos hw]
  rfl

/-- A value that is no NaN is an infinity or stands for a number. -/
theorem isInf_or_unpack (h : isNan src a = false) : isInf src a = true ∨ ∃ x, unpack src a = some x := by
  cases hu : unpack src a with
  | some x => exact .inr ⟨x, rfl⟩
  | none =>
    have hexp := unpack_eq_none_iff.mp hu
    refine .inl (isInf_iff.mpr ⟨hexp, ?_⟩)
    exact Decidable.byContradiction fun hfrac => Bool.eq_false_iff.mp h (isNan_iff.mpr ⟨hexp, hfrac⟩)

theorem sameNumber_of_exactConvert {b : BitVec dst.bits} (h : unpack src a = some x) (hb : exactConvert src dst a = some b) :
    ∃ y, unpack dst b = some y ∧ x.negative = y.negative ∧ x.SameNumber y := by
  rw [exactConvert_of_unpack h] at hb
  have hx := (fits_of_unpack h).inRange
  obtain ⟨y, hy, hsign, hsize⟩ := unpack_of_pack hx hb
  exact ⟨y, hy, hsign, (Finite.sameNumber_iff hx.place (fits_of_unpack hy).inRange.place).mpr ⟨.inl hsign, hsize⟩⟩

theorem exactConvert_isSome {c : BitVec dst.bits} {z : Finite} (h : unpack src a = some x) (hz : unpack dst c = some z)
    (same : x.SameNumber z) : (exactConvert src dst a).isSome = true := by
  have hx := (fits_of_unpack h).inRange
  have fits := fits_of_unpack hz
  obtain ⟨-, hsize⟩ := (Finite.sameNumber_iff hx.place fits.inRange.place).mp same
  rw [exactConvert_of_unpack h]
  exact pack_isSome hx fits hsize

theorem exactConvert_widening_isSome (hw : src.bits < dst.bits) (h : isNan src a = false) :
    (exactConvert src dst a).isSome = true := by
  rcases isInf_or_unpack h with hinf | ⟨x, hx⟩
  · rw [exactConvert_of_isInf hinf hw]
    rfl
  · have fits := fits_of_unpack hx
    rw [exactConvert_of_unpack hx]
    exact pack_isSome fits.inRange (fits.widen hw) rfl

theorem exactConvert_widening_isInf (hw : src.bits < dst.bits) (h : isInf src a = true) :
    ∃ b, exactConvert src dst a = some b ∧ isInf dst b = true ∧ b.msb = a.msb :=
  ⟨_, exactConvert_of_isInf h hw, isInf_pattern, signBit_pattern (Nat.le_refl _) (Nat.two_pow_pos _)⟩

end convert

/-! ## The integers of a kind -/

section kind
variable {kind : IntKind}

theorem kindRead_bounds (r : BitVec kind.bits) : kindLeast kind ≤ kindRead kind r ∧ kindRead kind r ≤ kindGreatest kind := by
  cases kind
  case s32 | s64 => exact ⟨r.le_toInt, Int.le_sub_one_of_lt r.toInt_lt⟩
  case u32 | u64 =>
    simp only [IntKind.bits] at r
    have hlt := r.isLt
    simp only [kindLeast, kindRead, kindGreatest]
    omega

theorem natAbs_kindRead_lt (r : BitVec kind.bits) : (kindRead kind r).natAbs < 2 ^ 64 := by
  have hleast : -(2 ^ 64) < kindLeast kind := by cases kind <;> decide
  have hgreatest : kindGreatest kind < 2 ^ 64 := by cases kind <;> decide
  obtain ⟨hlow, hhigh⟩ := kindRead_bounds r
  omega

theorem ofInt_kindRead (r : BitVec kind.bits) : BitVec.ofInt kind.bits (kindRead kind r) = r := by
  cases kind
  case s32 | s64 => exact BitVec.ofInt_toInt
  case u32 | u64 => exact (BitVec.ofInt_natCast ..).trans (BitVec.ofNat_toNat ..)

theorem kindRead_ofInt {i : Int} (hlow : kindLeast kind ≤ i) (hhigh : i ≤ kindGreatest kind) :
    kindRead kind (BitVec.ofInt kind.bits i) = i := by
  cases kind
  case s32 | s64 => exact BitVec.toInt_ofInt_eq_self (by decide) hlow (Int.lt_of_le_sub_one hhigh)
  case u32 | u64 =>
    simp only [kindLeast, kindGreatest] at hlow hhigh
    simp only [kindRead, BitVec.toNat_ofInt, IntKind.bits]
    omega

/-- A word of the kind for an integer in range is the word that reads as it. -/
theorem ofInt_in_range_eq_some_iff {i : Int} {r : BitVec kind.bits} :
    (if kindLeast kind ≤ i ∧ i ≤ kindGreatest kind then some (BitVec.ofInt kind.bits i) else none) = some r ↔
      i = kindRead kind r := by
  constructor
  · intro h
    split at h
    · next hi =>
      cases h
      exact (kindRead_ofInt hi.1 hi.2).symm
    · cases h
  · rintro rfl
    rw [if_pos (kindRead_bounds r), ofInt_kindRead]

end kind

/-! ## From an integer (R229 and its forms) -/

theorem ofInt_kindRead_inRange {kind : IntKind} (a : BitVec kind.bits) : (Finite.ofInt (kindRead kind a)).InRange :=
  ⟨natAbs_kindRead_lt a, leastPlace_le_zero⟩

section fromInt
variable {fmt : Fmt} {kind : IntKind} {a : BitVec kind.bits}

theorem exactFromInt_eq (fmt : Fmt) (a : BitVec kind.bits) :
    exactFromInt fmt kind a = pack fmt (.ofInt (kindRead kind a)) := rfl

theorem sameNumber_of_exactFromInt {b : BitVec fmt.bits} (h : exactFromInt fmt kind a = some b) :
    ∃ y, unpack fmt b = some y ∧ (Finite.ofInt (kindRead kind a)).negative = y.negative ∧
      (Finite.ofInt (kindRead kind a)).SameNumber y := by
  obtain ⟨y, hy, hsign, hsize⟩ := unpack_of_pack (ofInt_kindRead_inRange a) h
  have same := Finite.sameNumber_iff (ofInt_kindRead_inRange a).place (fits_of_unpack hy).inRange.place
  exact ⟨y, hy, hsign, same.mpr ⟨.inl hsign, hsize⟩⟩

theorem exactFromInt_isSome {c : BitVec fmt.bits} {z : Finite} (hz : unpack fmt c = some z)
    (same : (Finite.ofInt (kindRead kind a)).SameNumber z) : (exactFromInt fmt kind a).isSome = true := by
  have fits := fits_of_unpack hz
  obtain ⟨-, hsize⟩ := (Finite.sameNumber_iff leastPlace_le_zero fits.inRange.place).mp same
  exact pack_isSome (ofInt_kindRead_inRange a) fits hsize

end fromInt

/-! ## To an integer (R228 and its forms) -/

theorem signed_eq_iff (negative : Bool) (m : Nat) (i : Int) :
    (if negative then -(m : Int) else m) = i ↔ (negative = decide (i < 0) ∨ i = 0) ∧ m = i.natAbs := by
  cases negative
  · rw [if_neg Bool.false_ne_true, eq_comm (a := false), decide_eq_false_iff_not]
    omega
  · rw [if_pos rfl, eq_comm (a := true), decide_eq_true_eq]
    omega

theorem Finite.sameNumber_ofInt_iff {x : Finite} {i : Int} (hx : leastPlace ≤ x.place) :
    x.SameNumber (.ofInt i) ↔ (x.negative = decide (i < 0) ∨ i = 0) ∧ x.size = i.natAbs * unit 0 := by
  rw [Finite.sameNumber_iff hx leastPlace_le_zero]
  refine and_congr_left fun hsize => or_congr_right ?_
  have hzero : x.mantissa = 0 ↔ (Finite.ofInt i).mantissa = 0 := by
    rw [← Finite.size_eq_zero_iff, hsize, Finite.size_eq_zero_iff]
  rw [hzero, and_self]
  exact Int.natAbs_eq_zero

/-- A conversion to an integer is exact at the word that reads as the number, and only there. -/
theorem exactToInt_eq_some_iff {fmt : Fmt} {kind : IntKind} {a : BitVec fmt.bits} {r : BitVec kind.bits} {x : Finite}
    (h : unpack fmt a = some x) :
    exactToInt fmt kind a = some r ↔ x.SameNumber (.ofInt (kindRead kind r)) := by
  have hx := (fits_of_unpack h).inRange.place
  rw [Finite.sameNumber_ofInt_iff hx, Finite.size, ← shifted_eq_iff hx leastPlace_le_zero, Int.zero_sub, Int.sub_zero,
    exactToInt, h, Option.bind_some]
  by_cases hmod : x.mantissa % 2 ^ (-x.place).toNat = 0
  · simp only [hmod, ne_eq, not_true, if_false, ofInt_in_range_eq_some_iff, signed_eq_iff, true_and]
  · simp only [hmod, ne_eq, not_false_eq_true, if_true, false_and, and_false, reduceCtorEq]

/-- Settles O38: a packed value is the number it was packed from, and packing succeeds wherever the format has the number. -/
theorem conversionsKeepTheValue : Obligations.ConversionsKeepTheValue :=
  ⟨fun _ _ _ _ _ => sameNumber_of_exactConvert, fun _ _ _ _ _ _ => exactConvert_isSome,
    fun _ _ _ hw => ⟨exactConvert_widening_isSome hw, exactConvert_widening_isInf hw⟩,
    fun _ _ _ _ => sameNumber_of_exactFromInt, fun _ _ _ _ _ => exactFromInt_isSome,
    fun _ _ _ _ _ hx => (exactToInt_eq_some_iff hx).mp, fun _ _ _ _ _ hx => (exactToInt_eq_some_iff hx).mpr⟩

end Sys2Proof.Machine
end

section
/-! The statements of spec/47_packed_simd.md. A lane holds its exact value either wrapped, where no lane reports, or clamped to
a range, where a lane outside the range reports; every operation on lanes is one of the two. -/

namespace Sys2Proof.Machine

/-! ## The two ways a lane ends (spec/40_helpers.md R58 to R60, R63) -/

/-- An exact value clamped to the integers from lo to hi, in a lane of w bits, and whether it lies outside. -/
def clampedTo (w : Nat) (lo hi v : Int) : BitVec w × Bool := (BitVec.ofInt w (max lo (min hi v)), decide (v < lo ∨ hi < v))

section clamp
variable {w : Nat} {lo hi v : Int}

theorem clampedTo_of_gt (hr : lo ≤ hi) (h : hi < v) : clampedTo w lo hi v = (BitVec.ofInt w hi, true) := by
  rw [clampedTo, Int.min_eq_left (Int.le_of_lt h), Int.max_eq_right hr, decide_eq_true (.inr h)]

theorem clampedTo_of_lt (hr : lo ≤ hi) (h : v < lo) : clampedTo w lo hi v = (BitVec.ofInt w lo, true) := by
  rw [clampedTo, Int.min_eq_right (by omega), Int.max_eq_left (Int.le_of_lt h), decide_eq_true (.inl h)]

theorem clampedTo_of_mem (hlo : lo ≤ v) (hhi : v ≤ hi) : clampedTo w lo hi v = (BitVec.ofInt w v, false) := by
  rw [clampedTo, Int.min_eq_right hhi, Int.max_eq_right hlo, decide_eq_false (by omega)]

/-- The signed saturation clamps to the signed range (R58). -/
theorem satS_eq_clampedTo (w : Nat) (v : Int) (range : Nat) :
    satS w v range = clampedTo w (-2 ^ range) (2 ^ range - 1) v := by
  have hpos : (0 : Int) < 2 ^ range := Int.pow_pos (by decide)
  have hr : -(2 : Int) ^ range ≤ 2 ^ range - 1 := by omega
  by_cases hgt : 2 ^ range - 1 < v
  · rw [satS_of_gt hgt, clampedTo_of_gt hr hgt]
  by_cases hlt : v < -2 ^ range
  · rw [satS_of_lt hlt, clampedTo_of_lt hr hlt]
  · rw [satS_of_mem (Int.not_lt.mp hlt) (Int.not_lt.mp hgt), clampedTo_of_mem (Int.not_lt.mp hlt) (Int.not_lt.mp hgt)]

/-- The unsigned saturation clamps to the unsigned range (R59). -/
theorem satU_eq_clampedTo (w : Nat) (v : Int) (range : Nat) : satU w v range = clampedTo w 0 (2 ^ range - 1) v := by
  have hpos : (0 : Int) < 2 ^ range := Int.pow_pos (by decide)
  have hr : (0 : Int) ≤ 2 ^ range - 1 := by omega
  by_cases hgt : 2 ^ range - 1 < v
  · rw [satU_of_gt hgt, clampedTo_of_gt hr hgt]
  by_cases hlt : v < 0
  · rw [satU_of_neg hlt, clampedTo_of_lt hr hlt]
    rfl
  · rw [satU_of_mem (Int.not_lt.mp hlt) (Int.not_lt.mp hgt), clampedTo_of_mem (Int.not_lt.mp hlt) (Int.not_lt.mp hgt)]

/-- The half-multiply clamps to the signed range: MIN by MIN is the one product whose shift leaves it (R61). -/
theorem khm_eq_clampedTo (hw : 0 < w) (a b : BitVec w) :
    khm a b = clampedTo w (-2 ^ (w - 1)) (2 ^ (w - 1) - 1) (a.toInt * b.toInt / 2 ^ (w - 1)) := by
  have hpos : (0 : Int) < 2 ^ (w - 1) := Int.pow_pos (by decide)
  by_cases h : a.toInt = -2 ^ (w - 1) ∧ b.toInt = -2 ^ (w - 1)
  · obtain ⟨ha, hb⟩ := h
    have hq : a.toInt * b.toInt / 2 ^ (w - 1) = 2 ^ (w - 1) := by
      rw [ha, hb, Int.neg_mul_neg, Int.mul_ediv_cancel _ (Int.ne_of_gt hpos)]
    rw [khm_of_min hw ha hb, hq, clampedTo_of_gt (by omega) (by omega), ← BitVec.toInt_intMax, BitVec.ofInt_toInt]
  · have hq := khm_toInt_of_not_min hw h
    have hlo := (khm a b).1.le_toInt
    have hhi := (khm a b).1.toInt_lt
    rw [hq] at hlo hhi
    rw [khm_of_not_min hw h, clampedTo_of_mem hlo (Int.le_sub_one_of_lt hhi)]

end clamp

section shapes
variable {i : Instr} {s : State} {w : Nat} {names : List Reg} {rd : Reg} {f : Nat → BitVec w × Bool}

/-- A packed instruction all of whose lanes wrap leaves OV. -/
theorem completes_wrapped {value : Nat → BitVec w} (hw : w = 8 ∨ w = 16) (h : s.mayName names = true)
    (he : exec i s = packed w names rd s f) (e : ∀ j, f j = wrapped (value j)) :
    Completes i s fun t => WritesLanes w s t rd value (fun _ => False) :=
  .of he (packed_writesLanes hw h (fun j _ => by rw [e]; rfl) fun j _ => by rw [e]; simp only [wrapped, Bool.false_eq_true])

/-- A packed instruction all of whose lanes clamp sets OV where a lane's exact value lies outside the range. -/
theorem completes_clamped {lo hi : Int} {v : Nat → Int} (hw : w = 8 ∨ w = 16) (h : s.mayName names = true)
    (he : exec i s = packed w names rd s f) (e : ∀ j, f j = clampedTo w lo hi (v j)) :
    Completes i s fun t => WritesLanes w s t rd (fun j => BitVec.ofInt w (max lo (min hi (v j))))
      (fun j => v j < lo ∨ hi < v j) :=
  .of he (packed_writesLanes hw h (fun j _ => by rw [e]; rfl) fun j _ => by rw [e]; exact decide_eq_true_iff)

end shapes

/-! ## Sums and differences (R306 to R325) -/

section addSub
variable {w : Nat} (a b : BitVec w)

/-- A shift by 1 is the half, rounded down. -/
theorem int_shiftRight_one (x : Int) : x >>> 1 = x / 2 := by
  refine Eq.trans ?_ (int_shiftRight_eq_ediv x 1)
  cases x <;> rfl

theorem addHalfS_eq : addHalfS a b = wrapped (BitVec.ofInt w ((a.toInt + b.toInt) / 2)) := by
  rw [addHalfS, int_shiftRight_one]

theorem subHalfS_eq : subHalfS a b = wrapped (BitVec.ofInt w ((a.toInt - b.toInt) / 2)) := by
  rw [subHalfS, int_shiftRight_one]

theorem addHalfU_eq : addHalfU a b = wrapped (BitVec.ofInt w (((a.toNat : Int) + (b.toNat : Int)) / 2)) := by
  rw [addHalfU, Nat.shiftRight_eq_div_pow, Nat.pow_one, ← BitVec.ofInt_natCast, Int.natCast_ediv,
    Int.natCast_add, Int.cast_ofNat_Int]

theorem subHalfU_eq : subHalfU a b = wrapped (BitVec.ofInt w (((a.toNat : Int) - (b.toNat : Int)) / 2)) := by
  rw [subHalfU, int_shiftRight_one]

end addSub

/-- Settles O39: every lane wraps; a halving is the division by 2, rounded down. -/
theorem packedWrapHalve : Obligations.PackedWrapHalve := by
  refine fun s rd rs1 rs2 h => ⟨fun p hp => ?_, fun p hp => ?_⟩
  · simp only [List.mem_cons, List.not_mem_nil, or_false] at hp
    rcases hp with rfl | rfl | rfl | rfl | rfl | rfl
    · exact completes_wrapped (.inr rfl) h (exec_add16 ..) fun _ => rfl
    · exact completes_wrapped (.inr rfl) h (exec_radd16 ..) fun _ => addHalfS_eq _ _
    · exact completes_wrapped (.inr rfl) h (exec_uradd16 ..) fun _ => addHalfU_eq _ _
    · exact completes_wrapped (.inr rfl) h (exec_sub16 ..) fun _ => rfl
    · exact completes_wrapped (.inr rfl) h (exec_rsub16 ..) fun _ => subHalfS_eq _ _
    · exact completes_wrapped (.inr rfl) h (exec_ursub16 ..) fun _ => subHalfU_eq _ _
  · simp only [List.mem_cons, List.not_mem_nil, or_false] at hp
    rcases hp with rfl | rfl | rfl | rfl | rfl | rfl
    · exact completes_wrapped (.inl rfl) h (exec_add8 ..) fun _ => rfl
    · exact completes_wrapped (.inl rfl) h (exec_radd8 ..) fun _ => addHalfS_eq _ _
    · exact completes_wrapped (.inl rfl) h (exec_uradd8 ..) fun _ => addHalfU_eq _ _
    · exact completes_wrapped (.inl rfl) h (exec_sub8 ..) fun _ => rfl
    · exact completes_wrapped (.inl rfl) h (exec_rsub8 ..) fun _ => subHalfS_eq _ _
    · exact completes_wrapped (.inl rfl) h (exec_ursub8 ..) fun _ => subHalfU_eq _ _

/-- Settles O40: every lane is a saturation, which clamps to the signed or the unsigned range of the lane. -/
theorem packedSaturate : Obligations.PackedSaturate := by
  refine fun s rd rs1 rs2 h => ⟨fun p hp => ?_, fun p hp => ?_⟩
  · simp only [List.mem_cons, List.not_mem_nil, or_false] at hp
    rcases hp with rfl | rfl | rfl | rfl
    · exact completes_clamped (.inr rfl) h (exec_kadd16 ..) fun _ => satS_eq_clampedTo 16 _ 15
    · exact completes_clamped (.inr rfl) h (exec_ukadd16 ..) fun _ => satU_eq_clampedTo 16 _ 16
    · exact completes_clamped (.inr rfl) h (exec_ksub16 ..) fun _ => satS_eq_clampedTo 16 _ 15
    · exact completes_clamped (.inr rfl) h (exec_uksub16 ..) fun _ => satU_eq_clampedTo 16 _ 16
  · simp only [List.mem_cons, List.not_mem_nil, or_false] at hp
    rcases hp with rfl | rfl | rfl | rfl
    · exact completes_clamped (.inl rfl) h (exec_kadd8 ..) fun _ => satS_eq_clampedTo 8 _ 7
    · exact completes_clamped (.inl rfl) h (exec_ukadd8 ..) fun _ => satU_eq_clampedTo 8 _ 8
    · exact completes_clamped (.inl rfl) h (exec_ksub8 ..) fun _ => satS_eq_clampedTo 8 _ 7
    · exact completes_clamped (.inl rfl) h (exec_uksub8 ..) fun _ => satU_eq_clampedTo 8 _ 8

/-! ## Crossed operands (R326 to R335) -/

theorem crossLane_of_odd {i : Nat} (hi : i % 2 = 1) : crossLane i = i - 1 := if_neg (by omega)

theorem crossLane_of_even {i : Nat} (hi : ¬i % 2 = 1) : crossLane i = i + 1 := if_pos (by omega)

section crossed
variable {s : State} {rd rs1 rs2 : Reg} {i : Instr} {w : Nat} {up down : BitVec w → BitVec w → BitVec w × Bool}

/-- A crossed instruction both of whose operations wrap. -/
theorem completes_crossed_wrapped {f g : BitVec w → BitVec w → BitVec w} (hw : w = 8 ∨ w = 16)
    (h : s.mayName [rd, rs1, rs2] = true) (he : exec i s = lanesX w rd rs1 rs2 s up down)
    (hup : ∀ a b, up a b = wrapped (f a b)) (hdown : ∀ a b, down a b = wrapped (g a b)) :
    Completes i s fun t => WritesLanes w s t rd
      (fun j => if j % 2 = 1 then f (lane w (s.readX s.bits rs1) j) (lane w (s.readX s.bits rs2) (j - 1))
        else g (lane w (s.readX s.bits rs1) j) (lane w (s.readX s.bits rs2) (j + 1)))
      (fun _ => False) := by
  refine completes_wrapped hw h he fun j => ?_
  by_cases hj : j % 2 = 1
  · rw [if_pos hj, if_pos hj, crossLane_of_odd hj, hup]
  · rw [if_neg hj, if_neg hj, crossLane_of_even hj, hdown]

/-- A crossed instruction both of whose operations clamp to one range. -/
theorem completes_crossed_clamped {lo hi : Int} {f g : BitVec w → BitVec w → Int} (hw : w = 8 ∨ w = 16)
    (h : s.mayName [rd, rs1, rs2] = true) (he : exec i s = lanesX w rd rs1 rs2 s up down)
    (hup : ∀ a b, up a b = clampedTo w lo hi (f a b)) (hdown : ∀ a b, down a b = clampedTo w lo hi (g a b)) :
    let v : Nat → Int := fun j =>
      if j % 2 = 1 then f (lane w (s.readX s.bits rs1) j) (lane w (s.readX s.bits rs2) (j - 1))
      else g (lane w (s.readX s.bits rs1) j) (lane w (s.readX s.bits rs2) (j + 1))
    Completes i s fun t => WritesLanes w s t rd (fun j => BitVec.ofInt w (max lo (min hi (v j))))
      (fun j => v j < lo ∨ hi < v j) := by
  refine completes_clamped hw h he fun j => ?_
  by_cases hj : j % 2 = 1
  · rw [if_pos hj, if_pos hj, crossLane_of_odd hj, hup]
  · rw [if_neg hj, if_neg hj, crossLane_of_even hj, hdown]

end crossed

/-- Settles O41: odd lanes take the first operation and even lanes the second, both on the crossed lanes. -/
theorem packedCrossed : Obligations.PackedCrossed := by
  refine fun s rd rs1 rs2 h => ⟨fun p hp => ?_, fun p hp => ?_⟩
  · simp only [List.mem_cons, List.not_mem_nil, or_false] at hp
    rcases hp with rfl | rfl | rfl | rfl | rfl | rfl
    · exact completes_crossed_wrapped (.inr rfl) h (exec_cras16 ..) (fun _ _ => rfl) fun _ _ => rfl
    · exact completes_crossed_wrapped (.inr rfl) h (exec_rcras16 ..) addHalfS_eq subHalfS_eq
    · exact completes_crossed_wrapped (.inr rfl) h (exec_urcras16 ..) addHalfU_eq subHalfU_eq
    · exact completes_crossed_wrapped (.inr rfl) h (exec_crsa16 ..) (fun _ _ => rfl) fun _ _ => rfl
    · exact completes_crossed_wrapped (.inr rfl) h (exec_rcrsa16 ..) subHalfS_eq addHalfS_eq
    · exact completes_crossed_wrapped (.inr rfl) h (exec_urcrsa16 ..) subHalfU_eq addHalfU_eq
  · have signed {f : BitVec 16 → BitVec 16 → Int} (a b) := satS_eq_clampedTo 16 (f a b) 15
    have unsigned {f : BitVec 16 → BitVec 16 → Int} (a b) := satU_eq_clampedTo 16 (f a b) 16
    simp only [List.mem_cons, List.not_mem_nil, or_false] at hp
    rcases hp with rfl | rfl | rfl | rfl
    · exact completes_crossed_clamped (.inr rfl) h (exec_kcras16 ..) signed signed
    · exact completes_crossed_clamped (.inr rfl) h (exec_ukcras16 ..) unsigned unsigned
    · exact completes_crossed_clamped (.inr rfl) h (exec_kcrsa16 ..) signed signed
    · exact completes_crossed_clamped (.inr rfl) h (exec_ukcrsa16 ..) unsigned unsigned

/-! ## Shifts (R336 to R349) -/

/-- The rounding shifts add half of the divisor before they divide (R62). -/
theorem rShrS_eq {w : Nat} (a : BitVec w) {k : Nat} (hk : k ≠ 0) :
    rShrS a k = BitVec.ofInt w ((a.toInt + 2 ^ (k - 1)) / 2 ^ k) := by
  obtain ⟨-, -, hvalue, -, -⟩ := (laneHelpers.2 w a k).2 hk
  rw [← hvalue, BitVec.ofInt_toInt]

theorem rShrU_eq {w : Nat} (a : BitVec w) {k : Nat} (hk : k ≠ 0) :
    rShrU a k = BitVec.ofNat w ((a.toNat + 2 ^ (k - 1)) / 2 ^ k) := by
  obtain ⟨-, -, -, -, hvalue⟩ := (laneHelpers.2 w a k).2 hk
  rw [← hvalue, BitVec.ofNat_toNat, BitVec.setWidth_eq]

theorem rShrS_eq_ite {w : Nat} (a : BitVec w) (k : Nat) :
    rShrS a k = if k = 0 then a else BitVec.ofInt w ((a.toInt + 2 ^ (k - 1)) / 2 ^ k) := by
  split
  · next hk => rw [hk, rShrS_zero]
  · next hk => exact rShrS_eq a hk

theorem rShrU_eq_ite {w : Nat} (a : BitVec w) (k : Nat) :
    rShrU a k = if k = 0 then a else BitVec.ofNat w ((a.toNat + 2 ^ (k - 1)) / 2 ^ k) := by
  split
  · next hk => rw [hk, rShrU_zero]
  · next hk => exact rShrU_eq a hk

theorem State.readX_four_toNat (s : State) (r : Reg) : (s.readX 4 r).toNat = (s.readX s.bits r).toNat % 16 := by
  rw [s.readX_low (by omega), BitVec.toNat_setWidth]

section shifts
variable {s : State} {rd rs1 rs2 : Reg} {imm : BitVec 4} {i j : Instr}

/-- A shift that wraps, in its two forms: the amount in a register and as an immediate. -/
theorem completes_shifts {f : BitVec 16 → Nat → BitVec 16 × Bool} {g : BitVec 16 → Nat → BitVec 16}
    (h : s.mayName [rd, rs1, rs2] = true) (hi : exec i s = laneShift rd rs1 rs2 s f)
    (hj : exec j s = lanes1 16 rd rs1 s fun a => f a imm.toNat) (e : ∀ a k, f a k = wrapped (g a k)) :
    Completes i s (fun t => WritesLanes 16 s t rd
      (fun l => g (lane 16 (s.readX s.bits rs1) l) ((s.readX s.bits rs2).toNat % 16)) (fun _ => False)) ∧
    Completes j s (fun t => WritesLanes 16 s t rd (fun l => g (lane 16 (s.readX s.bits rs1) l) imm.toNat)
      (fun _ => False)) :=
  ⟨completes_wrapped (.inr rfl) h hi fun _ => by rw [s.readX_four_toNat, e],
    completes_wrapped (.inr rfl) (mayName_of_subset h (by simp)) hj fun _ => e _ _⟩

end shifts

theorem shiftBoth_of_nonneg {m : Int} (hm : 0 ≤ m) (right : BitVec 16 → Nat → BitVec 16) (a : BitVec 16) :
    shiftBoth m right a = shlSat a m.toNat := if_pos hm

/-- A negative amount shifts right by at most 15. -/
theorem shiftBoth_of_neg {m : Int} (hm : m < 0) (right : BitVec 16 → Nat → BitVec 16) (a : BitVec 16) :
    shiftBoth m right a = wrapped (right a (min (-m).toNat 15)) := by
  have hamount : (min (-m) 15).toNat = min (-m).toNat 15 := by omega
  rw [shiftBoth, if_neg (Int.not_le.mpr hm), hamount]

/-- Settles O42: the right shifts and the plain left one wrap, the saturating ones clamp, and the sign of the amount chooses
between the two in kslra16 and kslra16.u. -/
theorem packedShifts : Obligations.PackedShifts := by
  intro s rd rs1 rs2 imm h a k up
  have hone : s.mayName [rd, rs1] = true := mayName_of_subset h (by simp)
  have left (l amount : Nat) := satS_eq_clampedTo 16 ((a l).toInt * 2 ^ amount) 15
  have amount : s.readX 5 rs2 = (s.readX s.bits rs2).setWidth 5 := s.readX_low (by omega) rs2
  refine ⟨fun p hp => ?_, ?_, ?_, fun hm => ⟨?_, ?_⟩, fun hm => ⟨?_, ?_⟩⟩
  · simp only [List.mem_cons, List.not_mem_nil, or_false] at hp
    rcases hp with rfl | rfl | rfl | rfl | rfl
    · exact completes_shifts h (exec_sra16 ..) (exec_srai16 ..) fun _ _ => rfl
    · exact completes_shifts h (exec_sra16U ..) (exec_srai16U ..) fun _ _ => congrArg wrapped (rShrS_eq_ite _ _)
    · exact completes_shifts h (exec_srl16 ..) (exec_srli16 ..) fun _ _ => rfl
    · exact completes_shifts h (exec_srl16U ..) (exec_srli16U ..) fun _ _ => congrArg wrapped (rShrU_eq_ite _ _)
    · exact completes_shifts h (exec_sll16 ..) (exec_slli16 ..) fun _ _ => rfl
  · exact completes_clamped (.inr rfl) h (exec_ksll16 ..) fun l => by rw [s.readX_four_toNat]; exact left l k
  · exact completes_clamped (.inr rfl) hone (exec_kslli16 ..) fun l => left l imm.toNat
  · exact completes_clamped (.inr rfl) h (exec_kslra16 ..) fun l => by
      rw [amount, shiftBoth_of_nonneg hm]; exact left l _
  · exact completes_clamped (.inr rfl) h (exec_kslra16U ..) fun l => by
      rw [amount, shiftBoth_of_nonneg hm]; exact left l _
  · exact completes_wrapped (.inr rfl) h (exec_kslra16 ..) fun l => by rw [amount, shiftBoth_of_neg hm]
  · exact completes_wrapped (.inr rfl) h (exec_kslra16U ..) fun l => by
      rw [amount, shiftBoth_of_neg hm, rShrS_eq _ (by omega)]

/-! ## Compares, minima and maxima (R350 to R359, R364 to R371) -/

/-- A lane chosen by a test, where the test says p. -/
theorem wrapped_ite {w : Nat} {test : Bool} {p : Prop} [Decidable p] {x y : BitVec w} (h : test = true ↔ p) :
    wrapped (if test then x else y) = wrapped (if p then x else y) :=
  congrArg wrapped (ite_congr (propext h) (fun _ => rfl) fun _ => rfl)

/-- Settles O43: every lane is chosen by a test, which compares the lanes as integers. -/
theorem packedCompareSelect : Obligations.PackedCompareSelect := by
  refine fun s rd rs1 rs2 h => ⟨fun p hp => ?_, fun p hp => ?_⟩
  · simp only [List.mem_cons, List.not_mem_nil, or_false] at hp
    rcases hp with rfl | rfl | rfl | rfl | rfl | rfl | rfl | rfl | rfl
    · exact completes_wrapped (.inr rfl) h (exec_cmpeq16 ..) fun _ => wrapped_ite beq_iff_eq
    · exact completes_wrapped (.inr rfl) h (exec_scmplt16 ..) fun _ => wrapped_ite BitVec.slt_iff_toInt_lt
    · exact completes_wrapped (.inr rfl) h (exec_scmple16 ..) fun _ => wrapped_ite BitVec.sle_iff_toInt_le
    · exact completes_wrapped (.inr rfl) h (exec_ucmplt16 ..) fun _ => wrapped_ite BitVec.ult_iff_toNat_lt
    · exact completes_wrapped (.inr rfl) h (exec_ucmple16 ..) fun _ => wrapped_ite BitVec.ule_iff_toNat_le
    · exact completes_wrapped (.inr rfl) h (exec_smin16 ..) fun _ => wrapped_ite BitVec.slt_iff_toInt_lt
    · exact completes_wrapped (.inr rfl) h (exec_umin16 ..) fun _ => wrapped_ite BitVec.ult_iff_toNat_lt
    · exact completes_wrapped (.inr rfl) h (exec_smax16 ..) fun _ => wrapped_ite BitVec.slt_iff_toInt_lt
    · exact completes_wrapped (.inr rfl) h (exec_umax16 ..) fun _ => wrapped_ite BitVec.ult_iff_toNat_lt
  · simp only [List.mem_cons, List.not_mem_nil, or_false] at hp
    rcases hp with rfl | rfl | rfl | rfl | rfl | rfl | rfl | rfl | rfl
    · exact completes_wrapped (.inl rfl) h (exec_cmpeq8 ..) fun _ => wrapped_ite beq_iff_eq
    · exact completes_wrapped (.inl rfl) h (exec_scmplt8 ..) fun _ => wrapped_ite BitVec.slt_iff_toInt_lt
    · exact completes_wrapped (.inl rfl) h (exec_scmple8 ..) fun _ => wrapped_ite BitVec.sle_iff_toInt_le
    · exact completes_wrapped (.inl rfl) h (exec_ucmplt8 ..) fun _ => wrapped_ite BitVec.ult_iff_toNat_lt
    · exact completes_wrapped (.inl rfl) h (exec_ucmple8 ..) fun _ => wrapped_ite BitVec.ule_iff_toNat_le
    · exact completes_wrapped (.inl rfl) h (exec_smin8 ..) fun _ => wrapped_ite BitVec.slt_iff_toInt_lt
    · exact completes_wrapped (.inl rfl) h (exec_umin8 ..) fun _ => wrapped_ite BitVec.ult_iff_toNat_lt
    · exact completes_wrapped (.inl rfl) h (exec_smax8 ..) fun _ => wrapped_ite BitVec.slt_iff_toInt_lt
    · exact completes_wrapped (.inl rfl) h (exec_umax8 ..) fun _ => wrapped_ite BitVec.ult_iff_toNat_lt

/-! ## Half-multiplies, clips and absolute values (R360 to R363, R372 to R375) -/

theorem crossLane_eq_ite (j : Nat) : crossLane j = if j % 2 = 1 then j - 1 else j + 1 := by
  split
  · next hj => exact crossLane_of_odd hj
  · next hj => exact crossLane_of_even hj

/-- Settles O44: every lane clamps, the half-multiplies as MIN by MIN is their one product outside the lane. -/
theorem packedMultiplyClip : Obligations.PackedMultiplyClip := by
  intro s rd rs1 rs2 imm h other clamped half
  have hone : s.mayName [rd, rs1] = true := mayName_of_subset h (by simp)
  refine ⟨?_, ?_, ?_, ?_, ?_, ?_, ?_, ?_⟩
  · exact completes_clamped (.inr rfl) h (exec_khm16 ..) fun _ => khm_eq_clampedTo (by decide) _ _
  · exact completes_clamped (.inl rfl) h (exec_khm8 ..) fun _ => khm_eq_clampedTo (by decide) _ _
  · exact completes_clamped (.inr rfl) h (exec_khmx16 ..) fun j => by
      rw [ite_self, khm_eq_clampedTo (by decide), crossLane_eq_ite]
  · exact completes_clamped (.inl rfl) h (exec_khmx8 ..) fun j => by
      rw [ite_self, khm_eq_clampedTo (by decide), crossLane_eq_ite]
  · exact completes_clamped (.inr rfl) hone (exec_sclip16 ..) fun _ => satS_eq_clampedTo 16 _ imm.toNat
  · exact completes_clamped (.inr rfl) hone (exec_uclip16 ..) fun _ => satU_eq_clampedTo 16 _ imm.toNat
  · exact completes_clamped (.inr rfl) hone (exec_kabs16 ..) fun _ => satS_eq_clampedTo 16 _ 15
  · exact completes_clamped (.inl rfl) hone (exec_kabs8 ..) fun _ => satS_eq_clampedTo 8 _ 7

end Sys2Proof.Machine
end

section
/-! The statements of spec/48_andes_vendor.md: exec.it, whose entry runs as its instruction does elsewhere. -/

namespace Sys2Proof

/-! ## What a 32-bit word decodes to (spec/30_encoding.md R44, R45) -/

theorem mem_of_firstMatch {n : Nat} {x : Xlen} {w : BitVec n} {rows : List (Row n)} {r : Row n}
    (h : firstMatch x w rows = some r) : r ∈ rows := by
  induction rows with
  | nil => cases h
  | cons q rows ih =>
    simp only [firstMatch] at h
    split at h
    · cases h; exact List.mem_cons_self
    · exact List.mem_cons_of_mem _ (ih h)

theorem instr_of_openFull {w : BitVec 32} {rows : List OpenRow} {i : Instr} (h : openFull w rows = some i) :
    ∃ o : OpenFull, i = o.instr := by
  induction rows with
  | nil => cases h
  | cons q rows ih =>
    cases q with
    | half _ _ => exact ih h
    | full w' o =>
      simp only [openFull] at h
      split at h
      · cases h; exact ⟨o, rfl⟩
      · exact ih h

/-- A 32-bit word decodes to what its row builds or to what a supplied encoding makes of it. -/
theorem decode_full_ok {x : Xlen} {openRows : List OpenRow} {w : BitVec 32} {i : Instr}
    (h : decode x openRows (.full w) = .ok i) : (∃ r ∈ rowsFull, i = r.build w) ∨ ∃ o : OpenFull, i = o.instr := by
  simp only [decode, decodeFull] at h
  split at h
  · next r hr => cases h; exact .inl ⟨r, mem_of_firstMatch hr, rfl⟩
  · split at h
    · next o ho => cases h; exact .inr (instr_of_openFull ho)
    · cases h

namespace Machine

/-! ## exec.it (R376 to R379) -/

/-- The instruction of a row runs in a table as it does elsewhere, whatever the operands in the word. -/
def RunsInTable (r : Row 32) : Prop := (fun w => runInner (r.build w)) = fun w => exec (r.build w)

/-- None of the 32-bit rows is compressed or exec.it: table by table, each row unfolds to one meaning on both sides. -/
theorem rowsFull_runsInTable : ∀ r ∈ rowsFull, RunsInTable r := by
  have each {rows : List (Row 32)}
      (e : rows.map (fun r w => runInner (r.build w)) = rows.map fun r w => exec (r.build w)) : ∀ r ∈ rows, RunsInTable r :=
    List.map_inj_left.mp e
  simp only [rowsFull, List.forall_mem_append]
  exact ⟨⟨⟨⟨⟨⟨⟨⟨each rfl, each rfl⟩, each rfl⟩, each rfl⟩, each rfl⟩, each rfl⟩, each rfl⟩, each rfl⟩, each rfl⟩

theorem runInner_openFull (o : OpenFull) (s : State) : runInner o.instr s = exec o.instr s := by
  cases o <;> rfl

/-- A 32-bit word's instruction is never refused as a table entry: it runs as it does elsewhere. -/
theorem runInner_of_decode {x : Xlen} {openRows : List OpenRow} {w : BitVec 32} {i : Instr}
    (h : decode x openRows (.full w) = .ok i) (s : State) : runInner i s = exec i s := by
  obtain ⟨r, hr, rfl⟩ | ⟨o, rfl⟩ := decode_full_ok h
  · exact congrFun (congrFun (rowsFull_runsInTable r hr) w) s
  · exact runInner_openFull o s

/-- The word at the entry's address. -/
def State.tableWord (s : State) (index : BitVec 16) : BitVec 32 := s.mem.load (s.tableEntry s.bits index) 4

section entry
variable {s : State} {index : BitVec 16}

theorem exec_execIt_fetch_refused (ha : s.params.admits (s.tableEntry s.bits index).toNat 4 .fetch = false) :
    exec (.execIt index) s = .next s.nowStuck := by
  simp only [exec_execIt, execExecIt, ha, Bool.not_false, if_true, State.stuck_eq]

variable (ha : s.params.admits (s.tableEntry s.bits index).toNat 4 .fetch = true)
include ha

theorem exec_execIt_half (hw : (s.tableWord index).extractLsb' 0 2 ≠ 3) : exec (.execIt index) s = .refused .tableEntry := by
  unfold State.tableWord at *
  simp only [exec_execIt, execExecIt, ha, bne_iff_ne.mpr hw, Bool.not_true, Bool.false_eq_true, if_false, if_true]

/-- A fetched entry of 32 bits is decoded and run with the flag set, which is cleared at the end. -/
theorem exec_execIt_full (hw : (s.tableWord index).extractLsb' 0 2 = 3) :
    exec (.execIt index) s = clearTe ((s.setTe true).decodeRun runInner (.full (s.tableWord index))) := by
  unfold State.tableWord at *
  simp only [exec_execIt, execExecIt, ha, bne_eq_false_iff_eq.mpr hw, Bool.not_true, Bool.false_eq_true, if_false]

theorem exec_execIt_error {x : Reject} (hw : (s.tableWord index).extractLsb' 0 2 = 3)
    (hd : decode s.params.xlen s.params.openRows (.full (s.tableWord index)) = .error x) :
    exec (.execIt index) s = clearTe ((s.setTe true).rejected x) := by
  rw [exec_execIt_full ha hw, decodeRun_of_error (s := s.setTe true) hd]

theorem exec_execIt_ok {i : Instr} (hw : (s.tableWord index).extractLsb' 0 2 = 3)
    (hd : decode s.params.xlen s.params.openRows (.full (s.tableWord index)) = .ok i) :
    exec (.execIt index) s = clearTe (exec i (s.setTe true)) := by
  rw [exec_execIt_full ha hw, decodeRun_of_ok (s := s.setTe true) hd, runInner_of_decode hd]

end entry

/-- With the flag set the next pc of a 32-bit instruction is that of the 16-bit exec.it (spec/40_helpers.md R55). -/
theorem npc_inTable {s : State} (h : s.hart.te = true) (n : Nat) : s.npc n 4 = s.pcVal n + 2 := by
  simp only [State.npc, h, if_true]
  ring

/-- What is written with the flag set is written all the same with the flag clear before and after. -/
theorem WritesX.clearTe {n : Nat} {s t : State} {rd : Reg} {v target : BitVec n} {bad : Bool} (hs : s.hart.te = false)
    (h : WritesX (s.setTe true) t rd v bad target) : WritesX s (t.setTe false) rd v bad target where
  result := h.result
  others := h.others
  finish := h.finish
  bytes := h.bytes
  frame := by
    have e := congrArg (State.setTe · false) h.frame
    rw [← hs] at e ⊢
    exact e

/-- Settles O47: the fetch, then the low bits of the entry, then what it decodes to. -/
theorem tableExecute : Obligations.TableExecute := by
  intro s index hte a w flagged
  have clear : s.setTe false = s := by rw [← hte]; rfl
  refine ⟨exec_execIt_fetch_refused, fun ha => ⟨exec_execIt_half ha, fun hw => ⟨fun hd => ?_, fun hd => ?_, fun hd => ?_,
    fun i hd => ?_⟩⟩⟩
  · rw [exec_execIt_error ha hw hd]
    exact congrArg (fun u : State => (.next (u.haltedFor .illegalInstruction) : Result)) clear
  · exact exec_execIt_error ha hw hd
  · exact exec_execIt_error ha hw hd
  · have run : exec (.execIt index) s = clearTe (exec i flagged) := exec_execIt_ok ha hw hd
    refine ⟨fun t ht => ?_, fun r hr => ?_, ?_⟩
    · rw [run, ht]; rfl
    · rw [run, hr]; rfl
    · rintro rd rs1 imm rfl hn v
      have value : s.readX s.bits rs1 + signedImm s.bits 0 imm = v := by rw [signedImm_zero]
      obtain ⟨t, ht, hx⟩ : NextWith (exec (.addi rd rs1 imm) flagged) _ := immOp_writes (s := flagged) hn value
      rw [npc_inTable (s := flagged) rfl] at hx
      exact ⟨_, by rw [run, ht]; rfl, hx.clearTe hte⟩

end Machine
end Sys2Proof
end

section
/-! The statements of spec/48_andes_vendor.md: lmw and smw, whose transfers are the registers of the table one after the
other. -/

namespace Sys2Proof.Machine

/-! ## The places of the transfers -/

/-- Where transfer j stands. -/
def lsmPlace {n : Nat} (a step : BitVec n) (j : Nat) : BitVec n := a + step * BitVec.ofNat n j

theorem lsmPlace_zero {n : Nat} (a step : BitVec n) : lsmPlace a step 0 = a := by
  simp [lsmPlace]

theorem lsmPlace_succ {n : Nat} (a step : BitVec n) (j : Nat) : lsmPlace a step (j + 1) = lsmPlace a step j + step := by
  have one : BitVec.ofNat n 1 = 1 := rfl
  simp only [lsmPlace, BitVec.ofNat_add, one]
  ring

/-- Two transfers of k bytes, k apart in either direction, have no byte in common, where all of them fit in the address
space. -/
theorem lsmPlace_byte_ne {n k len : Nat} {a step : BitVec n} (hstep : step = BitVec.ofNat n k ∨ step = -BitVec.ofNat n k)
    (hspace : len * k ≤ 2 ^ n) {i j b c : Nat} (hij : i ≠ j) (hi : i < len) (hj : j < len) (hb : b < k) (hc : c < k) :
    (lsmPlace a step i + BitVec.ofNat n b).toNat ≠ (lsmPlace a step j + BitVec.ofNat n c).toNat := by
  have offset_lt {p d : Nat} (hp : p < len) (hd : d < k) : k * p + d < 2 ^ n := by nlinarith
  have offset_ne {p q d e : Nat} (hpq : p ≠ q) (hp : p < len) (hq : q < len) (hd : d < k) (he : e < k) :
      BitVec.ofNat n (k * p + d) ≠ BitVec.ofNat n (k * q + e) := by
    intro h
    have h := congrArg BitVec.toNat h
    simp only [BitVec.toNat_ofNat, Nat.mod_eq_of_lt (offset_lt hp hd), Nat.mod_eq_of_lt (offset_lt hq he)] at h
    have h := congrArg (· / k) h
    simp only [Nat.mul_add_div (Nat.zero_lt_of_lt hd), Nat.div_eq_of_lt hd, Nat.div_eq_of_lt he] at h
    exact hpq h
  intro h
  have h : lsmPlace a step i + BitVec.ofNat n b = lsmPlace a step j + BitVec.ofNat n c := BitVec.eq_of_toNat_eq h
  obtain rfl | rfl := hstep
  · refine offset_ne hij hi hj hb hc ?_
    simp only [lsmPlace, BitVec.ofNat_add, BitVec.ofNat_mul] at h ⊢
    linear_combination h
  · refine offset_ne hij.symm hj hi hb hc ?_
    simp only [lsmPlace, BitVec.ofNat_add, BitVec.ofNat_mul] at h ⊢
    linear_combination h

/-! ## A transfer of registers, one after the other -/

/-- A transfer moves one register at a time, each by one request of k bytes, a step apart; a refused request ends it. -/
structure MovesEach {n : Nat} (k : Nat) (step : BitVec n) (intent : Intent) (one : State → Reg → BitVec n → State)
    (transfer : List Reg → BitVec n → State → (State → State) → State) : Prop where
  nil : ∀ a s go, transfer [] a s go = go s
  admitted : ∀ r rs a s go, s.params.admits a.toNat k intent = true →
    transfer (r :: rs) a s go = transfer rs (a + step) (one s r a) go
  refused : ∀ r rs a s go, s.params.admits a.toNat k intent = false → transfer (r :: rs) a s go = s.nowStuck
  params : ∀ s r a, (one s r a).params = s.params

/-- One load of lmw. -/
def loadMove {n : Nat} (s : State) (r : Reg) (a : BitVec n) : State := s.writeX r (s.mem.load a (n / 8))

/-- One store of smw. -/
def storeMove {n : Nat} (s : State) (r : Reg) (a : BitVec n) : State :=
  { s with mem := s.mem.store a (n / 8) (s.readX (8 * (n / 8)) r) }

theorem lmwFrom_movesEach {n : Nat} (step : BitVec n) :
    MovesEach (n / 8) step .read loadMove (lmwFrom step) where
  nil _ _ _ := rfl
  admitted _ _ _ _ _ h := State.loading_admitted h
  refused _ _ _ _ _ h := State.loading_refused h
  params _ _ _ := State.writeX_params ..

theorem smwFrom_movesEach {n : Nat} (step : BitVec n) :
    MovesEach (n / 8) step .write storeMove (smwFrom step) where
  nil _ _ _ := rfl
  admitted _ _ _ _ _ h := State.storing_admitted h
  refused _ _ _ _ _ h := State.storing_refused h
  params _ _ _ := rfl

/-- The state after the registers have been moved, the first to or from its place at a. -/
def State.moved {n : Nat} (s : State) (one : State → Reg → BitVec n → State) (a step : BitVec n) (regs : List Reg) : State :=
  regs.zipIdx.foldl (fun t e => one t e.1 (lsmPlace a step e.2)) s

section moves
variable {n k : Nat} {step a : BitVec n} {intent : Intent} {one : State → Reg → BitVec n → State} {regs : List Reg}
  {transfer : List Reg → BitVec n → State → (State → State) → State} {s : State} {go : State → State} {m : Nat}

theorem State.moved_nil : s.moved one a step [] = s := rfl

theorem State.moved_concat (r : Reg) :
    s.moved one a step (regs ++ [r]) = one (s.moved one a step regs) r (lsmPlace a step regs.length) := by
  simp [State.moved, List.zipIdx_append]

theorem State.moved_take_succ (hm : m < regs.length) :
    s.moved one a step (regs.take (m + 1)) = one (s.moved one a step (regs.take m)) regs[m] (lsmPlace a step m) := by
  rw [List.take_succ_eq_append_getElem hm, State.moved_concat, List.length_take_of_le hm.le]

/-- A property that each move keeps is kept by all. -/
theorem State.moved_induction {p : State → Prop} (h0 : p s) (h : ∀ t r b, p t → p (one t r b)) :
    p (s.moved one a step regs) :=
  List.foldlRecOn _ _ h0 fun t ht e _ => h t e.1 _ ht

theorem MovesEach.moved_params (h : MovesEach k step intent one transfer) : (s.moved one a step regs).params = s.params :=
  State.moved_induction (p := fun t => t.params = s.params) rfl fun t r b ht => (h.params t r b).trans ht

/-- With its first m requests admitted a transfer goes on behind them. -/
theorem MovesEach.first (h : MovesEach k step intent one transfer) (hm : m ≤ regs.length)
    (ha : ∀ j, j < m → s.params.admits (lsmPlace a step j).toNat k intent = true) :
    transfer regs a s go = transfer (regs.drop m) (lsmPlace a step m) (s.moved one a step (regs.take m)) go := by
  induction m with
  | zero => rw [lsmPlace_zero]; rfl
  | succ m ih =>
    have hm' : m < regs.length := hm
    rw [ih hm'.le fun j hj => ha j (Nat.lt_succ_of_lt hj), List.drop_eq_getElem_cons hm',
      h.admitted _ _ _ _ _ (by rw [h.moved_params]; exact ha m (Nat.lt_succ_self m)), State.moved_take_succ hm', lsmPlace_succ]

/-- With every request admitted a transfer moves every register. -/
theorem MovesEach.all (h : MovesEach k step intent one transfer)
    (ha : ∀ j, j < regs.length → s.params.admits (lsmPlace a step j).toNat k intent = true) :
    transfer regs a s go = go (s.moved one a step regs) := by
  rw [h.first le_rfl ha, List.drop_length, List.take_length, h.nil]

/-- With the request for register m refused a transfer stops behind the registers before it. -/
theorem MovesEach.part (h : MovesEach k step intent one transfer) (hm : m < regs.length)
    (ha : ∀ j, j < m → s.params.admits (lsmPlace a step j).toNat k intent = true)
    (hr : s.params.admits (lsmPlace a step m).toNat k intent = false) :
    transfer regs a s go = (s.moved one a step (regs.take m)).nowStuck := by
  rw [h.first hm.le ha, List.drop_eq_getElem_cons hm, h.refused _ _ _ _ _ (by rwa [h.moved_params])]

end moves

/-! ## What the transfers leave (R380, R381) -/

section loads
variable {n : Nat} {step a : BitVec n} {regs : List Reg} {s : State}

/-- Loads change general registers alone. -/
theorem movedLoads_frame : ∃ x, s.moved loadMove a step regs = { s with hart := { s.hart with x := x } } := by
  refine State.moved_induction (p := fun t => ∃ x, t = { s with hart := { s.hart with x := x } }) ⟨_, rfl⟩ ?_
  rintro _ r b ⟨x, rfl⟩
  by_cases hr : r = 0
  · exact ⟨x, if_pos hr⟩
  · exact ⟨_, if_neg hr⟩

/-- A register after loads: the last one into it, or else as before. -/
theorem readX_movedLoads {q : Reg} (hq : q ≠ 0) :
    (s.moved loadMove a step regs).readX 64 q =
      ((regs.zipIdx.filter fun e => e.1 == q).getLast?).elim (s.readX 64 q) fun e =>
        (s.mem.load (lsmPlace a step e.2) (n / 8)).setWidth 64 := by
  induction regs using List.reverseRecOn with
  | nil => rfl
  | append_singleton regs r ih =>
    obtain ⟨x, hx⟩ := movedLoads_frame (s := s) (a := a) (step := step) (regs := regs)
    have hmem : (s.moved loadMove a step regs).mem = s.mem := by rw [hx]
    rw [State.moved_concat, loadMove, hmem]
    by_cases hr : r = q
    · subst hr
      rw [State.readX_writeX_same, if_neg hq]
      simp [List.zipIdx_append, List.filter_append]
    · rw [State.readX_writeX_ne _ _ _ _ _ (Ne.symm hr), ih]
      simp [List.zipIdx_append, List.filter_append, hr]

end loads

section stores
variable {n : Nat} {step a : BitVec n} {regs : List Reg} {s : State} {m : Nat}

/-- Stores change memory alone. -/
theorem movedStores_frame : ∃ mem, s.moved storeMove a step regs = { s with mem := mem } := by
  refine State.moved_induction (p := fun t => ∃ mem, t = { s with mem := mem }) ⟨_, rfl⟩ ?_
  rintro _ r b ⟨mem, rfl⟩
  exact ⟨_, rfl⟩

theorem movedStores_take_succ (hm : m < regs.length) :
    (s.moved storeMove a step (regs.take (m + 1))).mem =
      (s.moved storeMove a step (regs.take m)).mem.store (lsmPlace a step m) (n / 8) (s.readX (8 * (n / 8)) regs[m]) := by
  obtain ⟨mem, h⟩ := movedStores_frame (s := s) (a := a) (step := step) (regs := regs.take m)
  rw [State.moved_take_succ hm, h]
  rfl

/-- The bytes outside the places of stores are as before. -/
theorem read_movedStores_outside (hm : m ≤ regs.length) {c : Nat}
    (hc : ∀ j, j < m → ∀ b, b < n / 8 → c ≠ (lsmPlace a step j + BitVec.ofNat n b).toNat) :
    (s.moved storeMove a step (regs.take m)).mem.read c = s.mem.read c := by
  induction m with
  | zero => rfl
  | succ m ih =>
    rw [movedStores_take_succ hm, Memory.read_store_outside _ _ _ _ _ (hc m (Nat.lt_succ_self m))]
    exact ih (Nat.le_of_succ_le hm) fun j hj => hc j (Nat.lt_succ_of_lt hj)

/-- Each place holds the bytes of its register. -/
theorem read_movedStores_inside (hstep : step = BitVec.ofNat n (n / 8) ∨ step = -BitVec.ofNat n (n / 8))
    (hspace : regs.length * (n / 8) ≤ 2 ^ n) (hm : m ≤ regs.length) {j b : Nat} (hj : j < m) (hb : b < n / 8) :
    (s.moved storeMove a step (regs.take m)).mem.read (lsmPlace a step j + BitVec.ofNat n b).toNat =
      (s.readX (8 * (n / 8)) (regs[j]'(Nat.lt_of_lt_of_le hj hm))).extractLsb' (8 * b) 8 := by
  induction m with
  | zero => exact absurd hj (Nat.not_lt_zero j)
  | succ m ih =>
    rw [movedStores_take_succ hm]
    obtain hj | rfl := Nat.lt_succ_iff_lt_or_eq.mp hj
    · rw [Memory.read_store_outside]
      · exact ih (Nat.le_of_succ_le hm) hj
      · intro c hc
        exact lsmPlace_byte_ne hstep hspace hj.ne (hj.trans hm) hm hb hc
    · exact Memory.read_store_inside _ _ _ _ _ (by nlinarith) hb

end stores

/-! ## The checks, the first place and the end -/

/-- The place of the first transfer. -/
def State.lsmFirst (s : State) (rb : Reg) (mode : LsmMode) : BitVec s.bits :=
  s.readX s.bits rb + (if lsmPre mode then lsmStep s.bits mode else 0)

/-- The operands are malformed. -/
def State.LsmMalformed (s : State) (table : Vector Reg 32) (rb : Reg) (first last : BitVec 5) (mode : LsmMode) : Prop :=
  rb = 0 ∨ table[last.toNat]'last.isLt = 0 ∨ last < first ∨ (s.lsmFirst rb mode).toNat % (s.bits / 8) ≠ 0

section lsmOp
variable {s : State} {rb : Reg} {first last : BitVec 5} {form : LsmForm} {paired : Bool} {table : Vector Reg 32}
  {transfer : BitVec s.bits → List Reg → BitVec s.bits → State → (State → State) → State}

theorem lsmOp_open (ht : s.params.lsmTable = none) : lsmOp rb first last form paired s transfer = .refused .lsmOpen := by
  simp only [lsmOp, ht]

theorem lsmOp_malformed (ht : s.params.lsmTable = some table) (hn : s.mayName (rb :: lsmRegs table first last) = true)
    (hbad : s.LsmMalformed table rb first last form.mode) :
    lsmOp rb first last form paired s transfer = .next (s.haltedFor .illegalInstruction) := by
  simp only [lsmOp, ht, naming_of_mayName hn]
  exact congrArg _ (if_pos hbad)

theorem lsmOp_wellFormed (ht : s.params.lsmTable = some table) (hn : s.mayName (rb :: lsmRegs table first last) = true)
    (hbad : ¬s.LsmMalformed table rb first last form.mode) :
    lsmOp rb first last form paired s transfer =
      .next (transfer (lsmStep s.bits form.mode) (lsmRegs table first last) (s.lsmFirst rb form.mode) s fun t =>
        t.lsmFinish s.bits rb (s.lsmRequest rb first last form.mode paired) form.length) := by
  simp only [lsmOp, ht, naming_of_mayName hn]
  exact congrArg _ (if_neg hbad)

variable {intent : Intent} {one : State → Reg → BitVec s.bits → State}
  (moves : ∀ step, MovesEach (s.bits / 8) step intent one (transfer step))
include moves

/-- Every transfer is admitted: all registers are moved and the base takes its new value. -/
theorem lsmOp_all (ht : s.params.lsmTable = some table) (hn : s.mayName (rb :: lsmRegs table first last) = true)
    (hbad : ¬s.LsmMalformed table rb first last form.mode)
    (ha : ∀ j, j < (lsmRegs table first last).length →
      s.params.admits (lsmPlace (s.lsmFirst rb form.mode) (lsmStep s.bits form.mode) j).toNat (s.bits / 8) intent = true) :
    lsmOp rb first last form paired s transfer =
      .next ((s.moved one (s.lsmFirst rb form.mode) (lsmStep s.bits form.mode) (lsmRegs table first last)).lsmFinish s.bits rb
        (s.lsmRequest rb first last form.mode paired) form.length) := by
  rw [lsmOp_wellFormed ht hn hbad, (moves _).all ha]

/-- Transfer m is refused: the registers before it are moved and the hart is stuck. -/
theorem lsmOp_part (ht : s.params.lsmTable = some table) (hn : s.mayName (rb :: lsmRegs table first last) = true)
    (hbad : ¬s.LsmMalformed table rb first last form.mode) {m : Nat} (hm : m < (lsmRegs table first last).length)
    (ha : ∀ j, j < m →
      s.params.admits (lsmPlace (s.lsmFirst rb form.mode) (lsmStep s.bits form.mode) j).toNat (s.bits / 8) intent = true)
    (hr : s.params.admits (lsmPlace (s.lsmFirst rb form.mode) (lsmStep s.bits form.mode) m).toNat (s.bits / 8) intent = false) :
    lsmOp rb first last form paired s transfer =
      .next (s.moved one (s.lsmFirst rb form.mode) (lsmStep s.bits form.mode)
        ((lsmRegs table first last).take m)).nowStuck := by
  rw [lsmOp_wellFormed ht hn hbad, (moves _).part hm ha hr]

end lsmOp

theorem lsmStep_cases (n : Nat) (mode : LsmMode) :
    lsmStep n mode = BitVec.ofNat n (n / 8) ∨ lsmStep n mode = -BitVec.ofNat n (n / 8) := by
  cases mode
  case postAscending | preAscending => exact .inl rfl
  case postDescending | preDescending => exact .inr rfl

theorem eq_lsmStep {n : Nat} {mode : LsmMode} {step : BitVec n}
    (hdown : mode = .postDescending ∨ mode = .preDescending → step = -BitVec.ofNat n (n / 8))
    (hup : ¬(mode = .postDescending ∨ mode = .preDescending) → step = BitVec.ofNat n (n / 8)) : step = lsmStep n mode := by
  cases mode
  case postAscending | preAscending => exact hup (by decide)
  case postDescending | preDescending => exact hdown (by decide)

theorem State.eq_lsmFirst {s : State} {rb : Reg} {mode : LsmMode} {a : BitVec s.bits}
    (hpre : mode = .preAscending ∨ mode = .preDescending → a = s.readX s.bits rb + lsmStep s.bits mode)
    (hpost : ¬(mode = .preAscending ∨ mode = .preDescending) → a = s.readX s.bits rb) : a = s.lsmFirst rb mode := by
  cases mode
  case preAscending | preDescending => exact hpre (by decide)
  case postAscending | postDescending => exact (hpost (by decide)).trans (BitVec.add_zero _).symm

theorem lsmRegs_length_le (table : Vector Reg 32) (first last : BitVec 5) : (lsmRegs table first last).length ≤ 32 := by
  simp only [lsmRegs, List.length_take, List.length_drop, Vector.length_toList]
  omega

/-- A register fills its bytes: XLEN is a multiple of 8. -/
theorem State.extract_readX_bytes (s : State) (r : Reg) (i : Nat) :
    (s.readX (8 * (s.bits / 8)) r).extractLsb' i 8 = (s.readX s.bits r).extractLsb' i 8 := by
  rw [s.lanes_fill 8 (.inl rfl)]

/-- All the places fit in the address space. -/
theorem State.lsmRegs_space (s : State) (table : Vector Reg 32) (first last : BitVec 5) :
    (lsmRegs table first last).length * (s.bits / 8) ≤ 2 ^ s.bits := by
  have hlen := lsmRegs_length_le table first last
  have hbits := s.bits_le
  exact s.bytes_le_space _ ((Nat.mul_le_mul hlen (Nat.div_le_div_right hbits)).trans (by decide))

/-- The end of a transfer writes LSM_WB to the base register and goes on; x2 is not checked. -/
theorem State.lsmFinish_writesX (s : State) (n : Nat) (rb : Reg) (request : LsmRequest) (length : LsmLength) :
    WritesX s (s.lsmFinish n rb request length) rb ((Config.lsmWriteBack request).setWidth n) false
      (s.npc n (BitVec.ofNat n length.bytes)) :=
  s.intoXThen_writesX false rb _ _

section ends
variable {s u : State} {n : Nat} {rb : Reg} {request : LsmRequest} {length : LsmLength}

/-- The end behind loads: general registers, the pc and the status are all that differs from the state before. -/
theorem lsmFinish_after_loads (hrb : rb ≠ 0) (hu : ∃ x, u = { s with hart := { s.hart with x := x } }) :
    let t := u.lsmFinish n rb request length
    (∀ q, q ≠ rb → t.readX 64 q = u.readX 64 q) ∧
      t.readX 64 rb = ((Config.lsmWriteBack request).setWidth n).setWidth 64 ∧
      Finishes s t false (s.npc n (BitVec.ofNat n length.bytes)) ∧ (∀ b, t.mem.read b = s.mem.read b) ∧
      t = { s with hart := { s.hart with x := t.hart.x, pc := t.hart.pc, status := t.hart.status } } := by
  obtain ⟨x, rfl⟩ := hu
  have written := State.lsmFinish_writesX { s with hart := { s.hart with x := x } } n rb request length
  exact ⟨written.others, written.result.trans (if_neg hrb), written.finish, written.bytes, written.frame⟩

/-- The end behind stores: the base register is written over the memory that the stores left. -/
theorem lsmFinish_after_stores (hu : ∃ mem, u = { s with mem := mem }) :
    let t := u.lsmFinish n rb request length
    t.mem = u.mem ∧ WritesX { s with mem := t.mem } t rb ((Config.lsmWriteBack request).setWidth n) false
      (s.npc n (BitVec.ofNat n length.bytes)) := by
  obtain ⟨mem, rfl⟩ := hu
  have kept : (State.lsmFinish { s with mem := mem } n rb request length).mem = mem := by
    simp [State.lsmFinish, State.intoXThen]
  refine ⟨kept, ?_⟩
  rw [kept]
  exact State.lsmFinish_writesX { s with mem := mem } n rb request length

theorem nowStuck_after_loads (hu : ∃ x, u = { s with hart := { s.hart with x := x } }) :
    (∀ b, u.nowStuck.mem.read b = s.mem.read b) ∧
      u.nowStuck = { s with hart := { s.hart with x := u.nowStuck.hart.x, status := .stuck } } := by
  obtain ⟨x, rfl⟩ := hu
  exact ⟨fun _ => rfl, rfl⟩

theorem nowStuck_after_stores (hu : ∃ mem, u = { s with mem := mem }) :
    u.nowStuck = { s with mem := u.nowStuck.mem, hart := { s.hart with status := .stuck } } := by
  obtain ⟨mem, rfl⟩ := hu
  rfl

end ends

/-- Settles O48: the transfers of both go register by register, all of them or up to the one refused; the end writes the base
register. -/
theorem loadStoreMultiple : Obligations.LoadStoreMultiple := by
  intro s rb first last mode paired length n size load store
  refine ⟨fun ht => ⟨lsmOp_open ht, lsmOp_open ht⟩, ?_⟩
  intro table ht regs down before hn step a0 hdown hup hpre hpost place next loaded stored base bad
  obtain rfl : step = lsmStep s.bits mode := eq_lsmStep hdown hup
  obtain rfl : a0 = s.lsmFirst rb mode := State.eq_lsmFirst hpre hpost
  have lengthBits : next = s.npc n (BitVec.ofNat n length.bytes) := by cases length <;> rfl
  have hload (m : Nat) (q : Reg) (hq : q ≠ 0) :
      (s.moved loadMove (s.lsmFirst rb mode) (lsmStep n mode) (regs.take m)).readX 64 q = loaded m q := by
    rw [readX_movedLoads hq]
    simp only [loaded]
    split
    · next latest => rw [latest]; rfl
    · next absent => rw [absent]; rfl
  have hstore (m : Nat) (hm : m ≤ regs.length) (t : State)
      (ht : t.mem = (s.moved storeMove (s.lsmFirst rb mode) (lsmStep n mode) (regs.take m)).mem) : stored m t := by
    refine ⟨fun j hj hjm b hb => ?_, fun c hc => ?_⟩
    · rw [ht, ← s.extract_readX_bytes]
      exact read_movedStores_inside (lsmStep_cases n mode) (s.lsmRegs_space table first last) hm hjm hb
    · rw [ht]
      exact read_movedStores_outside hm hc
  have loads (rs : List Reg) :=
    movedLoads_frame (s := s) (a := s.lsmFirst rb mode) (step := lsmStep n mode) (regs := rs)
  have stores (rs : List Reg) :=
    movedStores_frame (s := s) (a := s.lsmFirst rb mode) (step := lsmStep n mode) (regs := rs)
  refine ⟨fun hbad => ⟨lsmOp_malformed ht hn hbad, lsmOp_malformed ht hn hbad⟩, fun hbad ha => ?_, fun hbad ha => ?_,
    fun hbad m hm ha hr => ?_, fun hbad m hm ha hr => ?_⟩
  · have value := hload regs.length
    rw [List.take_length] at value
    have run := lsmOp_all (form := ⟨mode, length⟩) (paired := paired) lmwFrom_movesEach ht hn hbad ha
    obtain ⟨others, result, finish, bytes, frame⟩ := lsmFinish_after_loads (n := n) (length := length)
      (request := s.lsmRequest rb first last mode paired) (fun h => hbad (.inl h)) (loads regs)
    exact ⟨_, (exec_lmw ..).trans run, fun q hq hne => (others q hne).trans (value q hq), result, State.readX_zero _ _,
      lengthBits ▸ finish, bytes, frame⟩
  · have content := hstore regs.length le_rfl
    rw [List.take_length] at content
    have run := lsmOp_all (form := ⟨mode, length⟩) (paired := paired) smwFrom_movesEach ht hn hbad ha
    obtain ⟨kept, written⟩ := lsmFinish_after_stores (n := n) (rb := rb) (length := length)
      (request := s.lsmRequest rb first last mode paired) (stores regs)
    exact ⟨_, (exec_smw ..).trans run, content _ kept, lengthBits ▸ written⟩
  · have run := lsmOp_part (form := ⟨mode, length⟩) (paired := paired) lmwFrom_movesEach ht hn hbad hm ha hr
    obtain ⟨bytes, frame⟩ := nowStuck_after_loads (loads (regs.take m))
    exact ⟨_, (exec_lmw ..).trans run, hload m, State.readX_zero _ _, rfl, bytes, frame⟩
  · have run := lsmOp_part (form := ⟨mode, length⟩) (paired := paired) smwFrom_movesEach ht hn hbad hm ha hr
    have frame := nowStuck_after_stores (stores (regs.take m))
    exact ⟨_, (exec_smw ..).trans run, hstore m hm.le _ rfl, frame⟩

end Sys2Proof.Machine
end
